-- ==== Sys2Proof/Word.lean ====
section
/-! DEFINITION. The two word types of the core (00_scope.md R9): registers and memory cells are 8 bits, register pairs,
addresses and ports are 16 bits. Addition and subtraction wrap modulo 2^8 and 2^16, which is BitVec arithmetic. -/

namespace Sys2Proof

/-- A register or memory cell: the `u8` of 00_scope.md R9. -/
abbrev Byte := BitVec 8

/-- A register pair, an address or a port: the `u16` of 00_scope.md R9. -/
abbrev Word := BitVec 16

end Sys2Proof
end

