-- ==== Sys2Proof/Machine/Bits.lean ====
section
/-! DEFINITION. Bit fields, byte order and sign extension (00_scope.md R9, 30_encoding.md R102). -/

namespace Sys2Proof

/-- `hi(w) = w[15:8]` (00_scope.md R9). -/
def hi (w : Word) : Byte := w.extractLsb' 8 8

/-- `lo(w) = w[7:0]` (00_scope.md R9). -/
def lo (w : Word) : Byte := w.extractLsb' 0 8

/-- `h:l`, the pair with high byte `h` and low byte `l` (00_scope.md R9). -/
def join (h l : Byte) : Word := h ++ l

/-- `sext_8(v)` as a 16-bit addend: adding it modulo 2^16 adds the signed value of `v` (00_scope.md R9). -/
def sext8 (v : Byte) : Word := v.signExtend 16

/-- Opcode field `x = op[7:6]` (30_encoding.md R102). -/
def fieldX (op : Byte) : Nat := op.toNat / 64

/-- Opcode field `y = op[5:3]` (30_encoding.md R102). -/
def fieldY (op : Byte) : Nat := op.toNat / 8 % 8

/-- Opcode field `z = op[2:0]` (30_encoding.md R102). -/
def fieldZ (op : Byte) : Nat := op.toNat % 8

/-- Opcode field `p = op[5:4]` (30_encoding.md R102). -/
def fieldP (op : Byte) : Nat := op.toNat / 16 % 4

/-- Opcode field `q = op[3]` (30_encoding.md R102). -/
def fieldQ (op : Byte) : Bool := op.getLsbD 3

/-- The byte as an unsigned integer: `int(v)` (00_scope.md R9). -/
def int8 (v : Byte) : Nat := v.toNat

/-- The low nibble as an unsigned integer: `int(v[3:0])`. -/
def nibble (v : Byte) : Nat := v.toNat % 16

/-- The low twelve bits as an unsigned integer: `int(v[11:0])`. -/
def low12 (v : Word) : Nat := v.toNat % 4096

/-- A Boolean as the number 0 or 1. -/
def bit (b : Bool) : Nat := if b then 1 else 0

/-- A mask put in when a condition holds, else no bit: the `H(c)`, `V(c)`, `C(c)` of 42_alu8.md. -/
def maskIf (c : Bool) (m : Byte) : Byte := if c then m else 0#8

/-- `parity(v)`: true when `v` has an even number of 1 bits (10_state.md R31). -/
def parity (v : Byte) : Bool :=
  !(v.getLsbD 0 ^^ v.getLsbD 1 ^^ v.getLsbD 2 ^^ v.getLsbD 3 ^^ v.getLsbD 4 ^^ v.getLsbD 5 ^^ v.getLsbD 6 ^^ v.getLsbD 7)

/-- `1 << b` for a bit number `b` (44_rotate_bit.md R377). -/
def bitMask (b : BitVec 3) : Byte := 1#8 <<< b.toNat

/-- The indexable set of 30_encoding.md R116: the opcodes whose operands a DD or FD prefix replaces. -/
def indexable (op : Byte) : Bool :=
  [0x09, 0x19, 0x29, 0x39, 0x21, 0x22, 0x23, 0x24, 0x25, 0x26, 0x2A, 0x2B, 0x2C, 0x2D, 0x2E, 0x34, 0x35, 0x36].contains op.toNat
  || [0x44, 0x45, 0x46, 0x4C, 0x4D, 0x4E, 0x54, 0x55, 0x56, 0x5C, 0x5D, 0x5E].contains op.toNat
  || (0x60 ≤ op.toNat && op.toNat ≤ 0x6F) || (0x70 ≤ op.toNat && op.toNat ≤ 0x75)
  || [0x77, 0x7C, 0x7D, 0x7E].contains op.toNat
  || [0x84, 0x85, 0x86, 0x8C, 0x8D, 0x8E, 0x94, 0x95, 0x96, 0x9C, 0x9D, 0x9E].contains op.toNat
  || [0xA4, 0xA5, 0xA6, 0xAC, 0xAD, 0xAE, 0xB4, 0xB5, 0xB6, 0xBC, 0xBD, 0xBE].contains op.toNat
  || [0xE1, 0xE3, 0xE5, 0xE9, 0xF9].contains op.toNat

/-- The four prefix bytes (30_encoding.md R101). -/
def isPrefixByte (op : Byte) : Bool := [0xCB, 0xDD, 0xED, 0xFD].contains op.toNat

/-- The opcodes before which a DD or FD prefix is ignored, on the base page (48_cpu_control.md R504). -/
def prefixIgnorable (op : Byte) : Bool := !indexable op && !isPrefixByte op

end Sys2Proof
end

