-- ==== Sys2Proof/Syntax.lean ====
section
/-! DEFINITION. The syntax of the instruction set: the operand kinds of 30_encoding.md and `Instr`, one constructor per
row of spec/opcode_table.json, in the table's order. In names, `M` stands for the operand (HL), `Xd` for (IX+d) or
(IY+d), `Xh` for a half of IX or IY, `N` for an immediate byte. -/

namespace Sys2Proof

/-- The 8-bit register field r without its value 6, which is (HL) (30_encoding.md R103). -/
inductive Reg8 where
  | b | c | d | e | h | l | a
  deriving DecidableEq, Repr

/-- The register field of the LD forms with an index-register half, where 4 names IXh and 5 names IXl
(30_encoding.md R113 case 2). -/
inductive RegX where
  | b | c | d | e | xh | xl | a
  deriving DecidableEq, Repr

/-- `rp[p]` (30_encoding.md R104). -/
inductive Rp where
  | bc | de | hl | sp
  deriving DecidableEq, Repr

/-- `rp2[p]`, the pairs of PUSH and POP (30_encoding.md R104). -/
inductive Rp2 where
  | bc | de | hl | af
  deriving DecidableEq, Repr

/-- The pairs of ADD IX,pp: index 2 names the index register itself (30_encoding.md R104, R113). -/
inductive RpX where
  | bc | de | ix | sp
  deriving DecidableEq, Repr

/-- The pair that holds the address in LD A,(BC), LD A,(DE), LD (BC),A, LD (DE),A. -/
inductive BcDe where
  | bc | de
  deriving DecidableEq, Repr

/-- The index register a DD or FD prefix selects (30_encoding.md R101). -/
inductive Idx where
  | ix | iy
  deriving DecidableEq, Repr

/-- The half of an index register (10_state.md R23). -/
inductive Half where
  | high | low
  deriving DecidableEq, Repr

/-- The condition codes cc (10_state.md R30). -/
inductive Cond where
  | nz | z | nc | c | po | pe | p | m
  deriving DecidableEq, Repr

/-- The interrupt modes (10_state.md R37). -/
inductive IntMode where
  | im0 | im1 | im2
  deriving DecidableEq, Repr

/-- The instructions: one constructor per row of spec/opcode_table.json. -/
inductive Instr where
  /-- `NOP`, `00000000` (R490). -/
  | nop
  /-- `EX AF,AF'`, `00001000` (R255). -/
  | exAfAf
  /-- `DJNZ e`, `00010000` (R404). -/
  | djnz (e : Byte)
  /-- `JR e`, `00011000` (R402). -/
  | jr (e : Byte)
  /-- `JR cc,e`, `001cc000` (R403). -/
  | jrCc (cc : Cond) (e : Byte)
  /-- `LD dd,nn`, `00pp0001` (R240). -/
  | ldDdNn (p : Rp) (nn : Word)
  /-- `ADD HL,ss`, `00pp1001` (R320). -/
  | addHlSs (p : Rp)
  /-- `LD (BC),A / LD (DE),A`, `000p0010` (R211). -/
  | ldPairA (p : BcDe)
  /-- `LD A,(BC) / LD A,(DE)`, `000p1010` (R210). -/
  | ldAPair (p : BcDe)
  /-- `LD (nn),HL`, `00100010` (R244). -/
  | ldNnHl (nn : Word)
  /-- `LD HL,(nn)`, `00101010` (R242). -/
  | ldHlNn (nn : Word)
  /-- `LD (nn),A`, `00110010` (R213). -/
  | ldNnA (nn : Word)
  /-- `LD A,(nn)`, `00111010` (R212). -/
  | ldANn (nn : Word)
  /-- `INC ss`, `00pp0011` (R324). -/
  | incSs (p : Rp)
  /-- `DEC ss`, `00pp1011` (R326). -/
  | decSs (p : Rp)
  /-- `INC r`, `00rrr100` (R289). -/
  | incR (r : Reg8)
  /-- `INC (HL)`, `00110100` (R290). -/
  | incM
  /-- `DEC r`, `00rrr101` (R292). -/
  | decR (r : Reg8)
  /-- `DEC (HL)`, `00110101` (R293). -/
  | decM
  /-- `LD r,n`, `00rrr110` (R201). -/
  | ldRN (r : Reg8) (n : Byte)
  /-- `LD (HL),n`, `00110110` (R204). -/
  | ldMN (n : Byte)
  /-- `RLCA`, `00000111` (R360). -/
  | rlca
  /-- `RRCA`, `00001111` (R361). -/
  | rrca
  /-- `RLA`, `00010111` (R362). -/
  | rla
  /-- `RRA`, `00011111` (R363). -/
  | rra
  /-- `DAA`, `00100111` (R328). -/
  | daa
  /-- `CPL`, `00101111` (R329). -/
  | cpl
  /-- `SCF`, `00110111` (R331). -/
  | scf
  /-- `CCF`, `00111111` (R332). -/
  | ccf
  /-- `LD r,r'`, `01yyyzzz` (R200). -/
  | ldRR (r : Reg8) (r' : Reg8)
  /-- `LD r,(HL)`, `01yyy110` (R202). -/
  | ldRM (r : Reg8)
  /-- `LD (HL),r`, `01110zzz` (R203). -/
  | ldMR (r : Reg8)
  /-- `HALT`, `01110110` (R491). -/
  | halt
  /-- `ADD A,r`, `10000zzz` (R281). -/
  | addAR (r : Reg8)
  /-- `ADD A,(HL)`, `10000110` (R281). -/
  | addAM
  /-- `ADD A,n`, `11000110` (R281). -/
  | addAN (n : Byte)
  /-- `ADC A,r`, `10001zzz` (R282). -/
  | adcAR (r : Reg8)
  /-- `ADC A,(HL)`, `10001110` (R282). -/
  | adcAM
  /-- `ADC A,n`, `11001110` (R282). -/
  | adcAN (n : Byte)
  /-- `SUB r`, `10010zzz` (R283). -/
  | subR (r : Reg8)
  /-- `SUB (HL)`, `10010110` (R283). -/
  | subM
  /-- `SUB n`, `11010110` (R283). -/
  | subN (n : Byte)
  /-- `SBC A,r`, `10011zzz` (R284). -/
  | sbcAR (r : Reg8)
  /-- `SBC A,(HL)`, `10011110` (R284). -/
  | sbcAM
  /-- `SBC A,n`, `11011110` (R284). -/
  | sbcAN (n : Byte)
  /-- `AND r`, `10100zzz` (R285). -/
  | andR (r : Reg8)
  /-- `AND (HL)`, `10100110` (R285). -/
  | andM
  /-- `AND n`, `11100110` (R285). -/
  | andN (n : Byte)
  /-- `XOR r`, `10101zzz` (R286). -/
  | xorR (r : Reg8)
  /-- `XOR (HL)`, `10101110` (R286). -/
  | xorM
  /-- `XOR n`, `11101110` (R286). -/
  | xorN (n : Byte)
  /-- `OR r`, `10110zzz` (R287). -/
  | orR (r : Reg8)
  /-- `OR (HL)`, `10110110` (R287). -/
  | orM
  /-- `OR n`, `11110110` (R287). -/
  | orN (n : Byte)
  /-- `CP r`, `10111zzz` (R288). -/
  | cpR (r : Reg8)
  /-- `CP (HL)`, `10111110` (R288). -/
  | cpM
  /-- `CP n`, `11111110` (R288). -/
  | cpN (n : Byte)
  /-- `RET cc`, `11ccc000` (R410). -/
  | retCc (cc : Cond)
  /-- `POP qq`, `11qq0001` (R252). -/
  | popQq (p : Rp2)
  /-- `RET`, `11001001` (R409). -/
  | ret
  /-- `EXX`, `11011001` (R256). -/
  | exx
  /-- `JP (HL)`, `11101001` (R405). -/
  | jpHl
  /-- `LD SP,HL`, `11111001` (R248). -/
  | ldSpHl
  /-- `JP cc,nn`, `11ccc010` (R401). -/
  | jpCcNn (cc : Cond) (nn : Word)
  /-- `JP nn`, `11000011` (R400). -/
  | jpNn (nn : Word)
  /-- `CB prefix`, `11001011` (R118). -/
  | cbPrefix (op : Byte)
  /-- `OUT (n),A`, `11010011` (R473). -/
  | outNA (n : Byte)
  /-- `IN A,(n)`, `11011011` (R470). -/
  | inAN (n : Byte)
  /-- `EX (SP),HL`, `11100011` (R257). -/
  | exSpHl
  /-- `EX DE,HL`, `11101011` (R254). -/
  | exDeHl
  /-- `DI`, `11110011` (R492). -/
  | di
  /-- `EI`, `11111011` (R493). -/
  | ei
  /-- `CALL cc,nn`, `11ccc100` (R408). -/
  | callCcNn (cc : Cond) (nn : Word)
  /-- `PUSH qq`, `11qq0101` (R250). -/
  | pushQq (p : Rp2)
  /-- `CALL nn`, `11001101` (R407). -/
  | callNn (nn : Word)
  /-- `DD/FD prefix`, `11x11101` (R117). -/
  | ddFdPrefix (x : Idx)
  /-- `ED prefix`, `11101101` (R118). -/
  | edPrefix (op : Byte) (b1 : Byte) (b2 : Byte)
  /-- `RST p`, `11ppp111` (R411). -/
  | rst (y : BitVec 3)
  /-- `RLC r`, CB `00000zzz` (R365). -/
  | rlcR (r : Reg8)
  /-- `RLC (HL)`, CB `00000110` (R365). -/
  | rlcM
  /-- `RRC r`, CB `00001zzz` (R366). -/
  | rrcR (r : Reg8)
  /-- `RRC (HL)`, CB `00001110` (R366). -/
  | rrcM
  /-- `RL r`, CB `00010zzz` (R367). -/
  | rlR (r : Reg8)
  /-- `RL (HL)`, CB `00010110` (R367). -/
  | rlM
  /-- `RR r`, CB `00011zzz` (R368). -/
  | rrR (r : Reg8)
  /-- `RR (HL)`, CB `00011110` (R368). -/
  | rrM
  /-- `SLA r`, CB `00100zzz` (R369). -/
  | slaR (r : Reg8)
  /-- `SLA (HL)`, CB `00100110` (R369). -/
  | slaM
  /-- `SRA r`, CB `00101zzz` (R370). -/
  | sraR (r : Reg8)
  /-- `SRA (HL)`, CB `00101110` (R370). -/
  | sraM
  /-- `SLL r`, CB `00110zzz` (R371). -/
  | sllR (r : Reg8)
  /-- `SLL (HL)`, CB `00110110` (R371). -/
  | sllM
  /-- `SRL r`, CB `00111zzz` (R372). -/
  | srlR (r : Reg8)
  /-- `SRL (HL)`, CB `00111110` (R372). -/
  | srlM
  /-- `BIT b,r`, CB `01bbbzzz` (R374). -/
  | bitR (b : BitVec 3) (r : Reg8)
  /-- `BIT b,(HL)`, CB `01bbb110` (R375). -/
  | bitM (b : BitVec 3)
  /-- `RES b,r`, CB `10bbbzzz` (R378). -/
  | resR (b : BitVec 3) (r : Reg8)
  /-- `RES b,(HL)`, CB `10bbb110` (R378). -/
  | resM (b : BitVec 3)
  /-- `SET b,r`, CB `11bbbzzz` (R377). -/
  | setR (b : BitVec 3) (r : Reg8)
  /-- `SET b,(HL)`, CB `11bbb110` (R377). -/
  | setM (b : BitVec 3)
  /-- `IN r,(C)`, ED `01rrr000` (R471). -/
  | inRC (r : Reg8)
  /-- `IN (C) [IN F,(C)]`, ED `01110000` (R472). -/
  | inC
  /-- `OUT (C),r`, ED `01rrr001` (R474). -/
  | outCR (r : Reg8)
  /-- `OUT (C),0`, ED `01110001` (R475). -/
  | outC0
  /-- `SBC HL,ss`, ED `01pp0010` (R323). -/
  | sbcHlSs (p : Rp)
  /-- `ADC HL,ss`, ED `01pp1010` (R322). -/
  | adcHlSs (p : Rp)
  /-- `LD (nn),dd`, ED `01pp0011` (R247). -/
  | ldNnDd (p : Rp) (nn : Word)
  /-- `LD dd,(nn)`, ED `01pp1011` (R246). -/
  | ldDdMem (p : Rp) (nn : Word)
  /-- `NEG`, ED `01yyy100` (R330). -/
  | neg (y : BitVec 3)
  /-- `RETI`, ED `01001101` (R502). -/
  | reti
  /-- `RETN`, ED `01yyy101` (R501). -/
  | retn (y : BitVec 3)
  /-- `IM 0`, ED `01y0y110` (R494). -/
  | im0 (y5 : Bool) (y3 : Bool)
  /-- `IM 1`, ED `01y10110` (R495). -/
  | im1 (y5 : Bool)
  /-- `IM 2`, ED `01y11110` (R496). -/
  | im2 (y5 : Bool)
  /-- `LD I,A`, ED `01000111` (R497). -/
  | ldIA
  /-- `LD R,A`, ED `01001111` (R498). -/
  | ldRA
  /-- `LD A,I`, ED `01010111` (R499). -/
  | ldAI
  /-- `LD A,R`, ED `01011111` (R500). -/
  | ldAR
  /-- `RRD`, ED `01100111` (R382). -/
  | rrd
  /-- `RLD`, ED `01101111` (R381). -/
  | rld
  /-- `NOP (ED 77, ED 7F)`, ED `0111y111` (R503). -/
  | nopEd7 (y3 : Bool)
  /-- `LDI`, ED `10100000` (R440). -/
  | ldi
  /-- `CPI`, ED `10100001` (R444). -/
  | cpi
  /-- `INI`, ED `10100010` (R448). -/
  | ini
  /-- `OUTI`, ED `10100011` (R452). -/
  | outi
  /-- `LDD`, ED `10101000` (R441). -/
  | ldd
  /-- `CPD`, ED `10101001` (R445). -/
  | cpd
  /-- `IND`, ED `10101010` (R449). -/
  | ind
  /-- `OUTD`, ED `10101011` (R453). -/
  | outd
  /-- `LDIR`, ED `10110000` (R442). -/
  | ldir
  /-- `CPIR`, ED `10110001` (R446). -/
  | cpir
  /-- `INIR`, ED `10110010` (R450). -/
  | inir
  /-- `OTIR`, ED `10110011` (R454). -/
  | otir
  /-- `LDDR`, ED `10111000` (R443). -/
  | lddr
  /-- `CPDR`, ED `10111001` (R447). -/
  | cpdr
  /-- `INDR`, ED `10111010` (R451). -/
  | indr
  /-- `OTDR`, ED `10111011` (R455). -/
  | otdr
  /-- `NOP (ED 00-3F)`, ED `00xxxxxx` (R503). -/
  | nopEd0 (x : BitVec 6)
  /-- `NOP (ED 80-9F, A4-A7, AC-AF, B4-B7, BC-BF)`, ED `10yyyzzz` (R503). -/
  | nopEd2 (y : BitVec 3) (z : BitVec 3)
  /-- `NOP (ED C0-FF)`, ED `11xxxxxx` (R503). -/
  | nopEd3 (x : BitVec 6)
  /-- `ADD IX,pp`, DD|FD `00pp1001` (R321). -/
  | addIxPp (x : Idx) (p : RpX)
  /-- `LD IX,nn`, DD|FD `00100001` (R241). -/
  | ldIxNn (x : Idx) (nn : Word)
  /-- `LD (nn),IX`, DD|FD `00100010` (R245). -/
  | ldNnIx (x : Idx) (nn : Word)
  /-- `INC IX`, DD|FD `00100011` (R325). -/
  | incIx (x : Idx)
  /-- `INC IXh / INC IXl`, DD|FD `0010h100` (R289). -/
  | incXh (x : Idx) (h : Half)
  /-- `DEC IXh / DEC IXl`, DD|FD `0010h101` (R292). -/
  | decXh (x : Idx) (h : Half)
  /-- `LD IXh,n / LD IXl,n`, DD|FD `0010h110` (R209). -/
  | ldXhN (x : Idx) (h : Half) (n : Byte)
  /-- `LD IX,(nn)`, DD|FD `00101010` (R243). -/
  | ldIxMem (x : Idx) (nn : Word)
  /-- `DEC IX`, DD|FD `00101011` (R327). -/
  | decIx (x : Idx)
  /-- `INC (IX+d)`, DD|FD `00110100` (R291). -/
  | incXd (x : Idx) (d : Byte)
  /-- `DEC (IX+d)`, DD|FD `00110101` (R294). -/
  | decXd (x : Idx) (d : Byte)
  /-- `LD (IX+d),n`, DD|FD `00110110` (R207). -/
  | ldXdN (x : Idx) (d : Byte) (n : Byte)
  /-- `LD r,(IX+d)`, DD|FD `01yyy110` (R205). -/
  | ldRXd (x : Idx) (r : Reg8) (d : Byte)
  /-- `LD (IX+d),r`, DD|FD `01110zzz` (R206). -/
  | ldXdR (x : Idx) (r : Reg8) (d : Byte)
  /-- `LD r,r' with IXh/IXl`, DD|FD `01yyyzzz` (R208). -/
  | ldRRX (x : Idx) (r : RegX) (r' : RegX)
  /-- `ADD A,IXh / IXl`, DD|FD `1000010h` (R281). -/
  | addAXh (x : Idx) (h : Half)
  /-- `ADD A,(IX+d)`, DD|FD `10000110` (R281). -/
  | addAXd (x : Idx) (d : Byte)
  /-- `ADC A,IXh / IXl`, DD|FD `1000110h` (R282). -/
  | adcAXh (x : Idx) (h : Half)
  /-- `ADC A,(IX+d)`, DD|FD `10001110` (R282). -/
  | adcAXd (x : Idx) (d : Byte)
  /-- `SUB IXh / IXl`, DD|FD `1001010h` (R283). -/
  | subXh (x : Idx) (h : Half)
  /-- `SUB (IX+d)`, DD|FD `10010110` (R283). -/
  | subXd (x : Idx) (d : Byte)
  /-- `SBC A,IXh / IXl`, DD|FD `1001110h` (R284). -/
  | sbcAXh (x : Idx) (h : Half)
  /-- `SBC A,(IX+d)`, DD|FD `10011110` (R284). -/
  | sbcAXd (x : Idx) (d : Byte)
  /-- `AND IXh / IXl`, DD|FD `1010010h` (R285). -/
  | andXh (x : Idx) (h : Half)
  /-- `AND (IX+d)`, DD|FD `10100110` (R285). -/
  | andXd (x : Idx) (d : Byte)
  /-- `XOR IXh / IXl`, DD|FD `1010110h` (R286). -/
  | xorXh (x : Idx) (h : Half)
  /-- `XOR (IX+d)`, DD|FD `10101110` (R286). -/
  | xorXd (x : Idx) (d : Byte)
  /-- `OR IXh / IXl`, DD|FD `1011010h` (R287). -/
  | orXh (x : Idx) (h : Half)
  /-- `OR (IX+d)`, DD|FD `10110110` (R287). -/
  | orXd (x : Idx) (d : Byte)
  /-- `CP IXh / IXl`, DD|FD `1011110h` (R288). -/
  | cpXh (x : Idx) (h : Half)
  /-- `CP (IX+d)`, DD|FD `10111110` (R288). -/
  | cpXd (x : Idx) (d : Byte)
  /-- `DD CB / FD CB`, DD|FD `11001011` (R118). -/
  | ddCb (x : Idx) (d : Byte) (op : Byte)
  /-- `POP IX`, DD|FD `11100001` (R253). -/
  | popIx (x : Idx)
  /-- `EX (SP),IX`, DD|FD `11100011` (R258). -/
  | exSpIx (x : Idx)
  /-- `PUSH IX`, DD|FD `11100101` (R251). -/
  | pushIx (x : Idx)
  /-- `JP (IX)`, DD|FD `11101001` (R406). -/
  | jpIx (x : Idx)
  /-- `LD SP,IX`, DD|FD `11111001` (R249). -/
  | ldSpIx (x : Idx)
  /-- `prefix again (DD or FD)`, DD|FD `11x11101` (R117). -/
  | prefixAgain (x : Idx)
  /-- `ED after DD/FD`, DD|FD `11101101` (R504). -/
  | edAfterIndex (x : Idx) (op : Byte) (b1 : Byte) (b2 : Byte)
  /-- `prefix ignored: base-page instruction`, DD|FD `xxxxxxxx` (R504). -/
  | prefixIgnored (x : Idx) (op : Byte) (b1 : Byte) (b2 : Byte)
  /-- `RLC (IX+d)[,r]`, DD|FD CB d `00000zzz` (R373). -/
  | rlcXd (x : Idx) (d : Byte) (r : Option Reg8)
  /-- `RRC (IX+d)[,r]`, DD|FD CB d `00001zzz` (R373). -/
  | rrcXd (x : Idx) (d : Byte) (r : Option Reg8)
  /-- `RL (IX+d)[,r]`, DD|FD CB d `00010zzz` (R373). -/
  | rlXd (x : Idx) (d : Byte) (r : Option Reg8)
  /-- `RR (IX+d)[,r]`, DD|FD CB d `00011zzz` (R373). -/
  | rrXd (x : Idx) (d : Byte) (r : Option Reg8)
  /-- `SLA (IX+d)[,r]`, DD|FD CB d `00100zzz` (R373). -/
  | slaXd (x : Idx) (d : Byte) (r : Option Reg8)
  /-- `SRA (IX+d)[,r]`, DD|FD CB d `00101zzz` (R373). -/
  | sraXd (x : Idx) (d : Byte) (r : Option Reg8)
  /-- `SLL (IX+d)[,r]`, DD|FD CB d `00110zzz` (R373). -/
  | sllXd (x : Idx) (d : Byte) (r : Option Reg8)
  /-- `SRL (IX+d)[,r]`, DD|FD CB d `00111zzz` (R373). -/
  | srlXd (x : Idx) (d : Byte) (r : Option Reg8)
  /-- `BIT b,(IX+d)`, DD|FD CB d `01bbbzzz` (R376). -/
  | bitXd (x : Idx) (b : BitVec 3) (d : Byte) (z : BitVec 3)
  /-- `RES b,(IX+d)[,r]`, DD|FD CB d `10bbbzzz` (R380). -/
  | resXd (x : Idx) (b : BitVec 3) (d : Byte) (r : Option Reg8)
  /-- `SET b,(IX+d)[,r]`, DD|FD CB d `11bbbzzz` (R379). -/
  | setXd (x : Idx) (b : BitVec 3) (d : Byte) (r : Option Reg8)
  deriving DecidableEq, Repr

end Sys2Proof
end

