-- ==== Sys2Proof/WellFormed.lean ====
section
/-! DEFINITION. Which terms of `Instr` the encoding admits: the "constraint" column of spec/opcode_table.json, where the
operand types do not already say it. -/

namespace Sys2Proof

/-- The register named is a half of the index register (30_encoding.md R113 case 2). -/
def RegX.isHalf : RegX → Bool
  | .xh | .xl => true
  | .b | .c | .d | .e | .a => false

/-- The first four conditions, those JR cc,e has (30_encoding.md R105, 10_state.md R30). -/
def Cond.ofJr : Cond → Bool
  | .nz | .z | .nc | .c => true
  | .po | .pe | .p | .m => false

/-- An ED opcode with x = 2 names a block instruction when y ≥ 4 and z ≤ 3 (30_encoding.md R109). -/
def isBlockField (y z : BitVec 3) : Bool := 4 ≤ y.toNat && z.toNat ≤ 3

/-- The instruction has an encoding. Every instruction of a row without a constraint has one. -/
def Instr.wellFormed : Instr → Bool
  | .jrCc cc _ => cc.ofJr
  | .retn y => y != 1#3
  | .nopEd2 y z => !isBlockField y z
  | .ldRRX _ r r' => r.isHalf || r'.isHalf
  | .prefixIgnored _ op _ _ => prefixIgnorable op
  | .nop | .exAfAf | .djnz _ | .jr _ | .ldDdNn _ _ | .addHlSs _ | .ldPairA _ | .ldAPair _ | .ldNnHl _ | .ldHlNn _
  | .ldNnA _ | .ldANn _ | .incSs _ | .decSs _ | .incR _ | .incM | .decR _ | .decM | .ldRN _ _ | .ldMN _ | .rlca
  | .rrca | .rla | .rra | .daa | .cpl | .scf | .ccf | .ldRR _ _ | .ldRM _ | .ldMR _ | .halt | .addAR _ | .addAM
  | .addAN _ | .adcAR _ | .adcAM | .adcAN _ | .subR _ | .subM | .subN _ | .sbcAR _ | .sbcAM | .sbcAN _ | .andR _
  | .andM | .andN _ | .xorR _ | .xorM | .xorN _ | .orR _ | .orM | .orN _ | .cpR _ | .cpM | .cpN _ | .retCc _
  | .popQq _ | .ret | .exx | .jpHl | .ldSpHl | .jpCcNn _ _ | .jpNn _ | .cbPrefix _ | .outNA _ | .inAN _ | .exSpHl
  | .exDeHl | .di | .ei | .callCcNn _ _ | .pushQq _ | .callNn _ | .ddFdPrefix _ | .edPrefix _ _ _ | .rst _
  | .rlcR _ | .rlcM | .rrcR _ | .rrcM | .rlR _ | .rlM | .rrR _ | .rrM | .slaR _ | .slaM | .sraR _ | .sraM | .sllR _
  | .sllM | .srlR _ | .srlM | .bitR _ _ | .bitM _ | .resR _ _ | .resM _ | .setR _ _ | .setM _ | .inRC _ | .inC
  | .outCR _ | .outC0 | .sbcHlSs _ | .adcHlSs _ | .ldNnDd _ _ | .ldDdMem _ _ | .neg _ | .reti | .im0 _ _ | .im1 _
  | .im2 _ | .ldIA | .ldRA | .ldAI | .ldAR | .rrd | .rld | .nopEd7 _ | .ldi | .cpi | .ini | .outi | .ldd | .cpd
  | .ind | .outd | .ldir | .cpir | .inir | .otir | .lddr | .cpdr | .indr | .otdr | .nopEd0 _ | .nopEd3 _
  | .addIxPp _ _ | .ldIxNn _ _ | .ldNnIx _ _ | .incIx _ | .incXh _ _ | .decXh _ _ | .ldXhN _ _ _ | .ldIxMem _ _
  | .decIx _ | .incXd _ _ | .decXd _ _ | .ldXdN _ _ _ | .ldRXd _ _ _ | .ldXdR _ _ _ | .addAXh _ _ | .addAXd _ _
  | .adcAXh _ _ | .adcAXd _ _ | .subXh _ _ | .subXd _ _ | .sbcAXh _ _ | .sbcAXd _ _ | .andXh _ _ | .andXd _ _
  | .xorXh _ _ | .xorXd _ _ | .orXh _ _ | .orXd _ _ | .cpXh _ _ | .cpXd _ _ | .ddCb _ _ _ | .popIx _ | .exSpIx _
  | .pushIx _ | .jpIx _ | .ldSpIx _ | .prefixAgain _ | .edAfterIndex _ _ _ _ | .rlcXd _ _ _ | .rrcXd _ _ _
  | .rlXd _ _ _ | .rrXd _ _ _ | .slaXd _ _ _ | .sraXd _ _ _ | .sllXd _ _ _ | .srlXd _ _ _ | .bitXd _ _ _ _
  | .resXd _ _ _ _ | .setXd _ _ _ _ => true

end Sys2Proof
end

