-- ==== Sys2Proof/Decode.lean ====
section
/-! DEFINITION. The decoder and the encoder (30_encoding.md). The five decode tables are five functions (R114, R115, R116,
R120, R121); `decodeAt` is the decoder of R118 for one step, given the prefix latch and the bytes at PC. It is total on any
bytes (R122); `decode` reads a list of bytes and rejects one that ends before the instruction does. `Instr.body` is the
encoder, written from the same tables. -/

namespace Sys2Proof

/-! ### Operand fields (30_encoding.md R103, R104, R105) -/

/-- The register of an r field; none is the value 6, the memory operand (R103). -/
def Reg8.ofField : Nat → Option Reg8
  | 0 => some .b
  | 1 => some .c
  | 2 => some .d
  | 3 => some .e
  | 4 => some .h
  | 5 => some .l
  | 6 => none
  | _ => some .a

/-- The r field of a register (R103). -/
def Reg8.field : Reg8 → BitVec 3
  | .b => 0#3 | .c => 1#3 | .d => 2#3 | .e => 3#3 | .h => 4#3 | .l => 5#3 | .a => 7#3

/-- The z field of a register copy: 6 when there is none (R121). -/
def copyField : Option Reg8 → BitVec 3
  | some r => r.field
  | none => 6#3

/-- The register of an r field under DD or FD, 4 and 5 being the halves (R113 case 2). -/
def RegX.ofField : Nat → Option RegX
  | 0 => some .b
  | 1 => some .c
  | 2 => some .d
  | 3 => some .e
  | 4 => some .xh
  | 5 => some .xl
  | 6 => none
  | _ => some .a

/-- The r field of such a register (R113 case 2). -/
def RegX.field : RegX → BitVec 3
  | .b => 0#3 | .c => 1#3 | .d => 2#3 | .e => 3#3 | .xh => 4#3 | .xl => 5#3 | .a => 7#3

/-- `rp[p]` (R104). -/
def Rp.ofField : Nat → Rp
  | 0 => .bc
  | 1 => .de
  | 2 => .hl
  | _ => .sp

/-- The p field of `rp` (R104). -/
def Rp.field : Rp → BitVec 2
  | .bc => 0#2 | .de => 1#2 | .hl => 2#2 | .sp => 3#2

/-- `rp2[p]` (R104). -/
def Rp2.ofField : Nat → Rp2
  | 0 => .bc
  | 1 => .de
  | 2 => .hl
  | _ => .af

/-- The p field of `rp2` (R104). -/
def Rp2.field : Rp2 → BitVec 2
  | .bc => 0#2 | .de => 1#2 | .hl => 2#2 | .af => 3#2

/-- `rp[p]` under DD or FD, index 2 naming the index register (R104). -/
def RpX.ofField : Nat → RpX
  | 0 => .bc
  | 1 => .de
  | 2 => .ix
  | _ => .sp

/-- Its p field (R104). -/
def RpX.field : RpX → BitVec 2
  | .bc => 0#2 | .de => 1#2 | .ix => 2#2 | .sp => 3#2

/-- The one p bit of LD A,(BC) and its like (40_load8.md R210, R211). -/
def BcDe.field : BcDe → BitVec 1
  | .bc => 0#1 | .de => 1#1

/-- The condition of a cc field (R105). -/
def Cond.ofField : Nat → Cond
  | 0 => .nz
  | 1 => .z
  | 2 => .nc
  | 3 => .c
  | 4 => .po
  | 5 => .pe
  | 6 => .p
  | _ => .m

/-- The cc field of a condition (R105). -/
def Cond.field : Cond → BitVec 3
  | .nz => 0#3 | .z => 1#3 | .nc => 2#3 | .c => 3#3 | .po => 4#3 | .pe => 5#3 | .p => 6#3 | .m => 7#3

/-- The prefix byte of an index register (R101). -/
def Idx.byte : Idx → Byte
  | .ix => 0xDD#8
  | .iy => 0xFD#8

/-- The index register a DD or FD byte selects; the other bytes never get here (R117). -/
def Idx.ofByte (op : Byte) : Idx := if op = 0xDD#8 then .ix else .iy

/-- The h bit of the forms that name IXh or IXl (spec/opcode_table.json). -/
def Half.field : Half → BitVec 1
  | .high => 0#1 | .low => 1#1

/-- The half an opcode bit names. -/
def Half.ofBit (b : Bool) : Half := if b then .low else .high

/-- The b or y field of an opcode as three bits (R102). -/
def bits3 (n : Nat) : BitVec 3 := BitVec.ofNat 3 n

/-! ### The five decode tables -/

/-- The CB page (R115). -/
def decodeCb (op : Byte) : Instr :=
  match fieldX op, Reg8.ofField (fieldZ op) with
  | 0, some r =>
    match fieldY op with
    | 0 => .rlcR r | 1 => .rrcR r | 2 => .rlR r | 3 => .rrR r | 4 => .slaR r | 5 => .sraR r | 6 => .sllR r | _ => .srlR r
  | 0, none =>
    match fieldY op with
    | 0 => .rlcM | 1 => .rrcM | 2 => .rlM | 3 => .rrM | 4 => .slaM | 5 => .sraM | 6 => .sllM | _ => .srlM
  | 1, some r => .bitR (bits3 (fieldY op)) r
  | 1, none => .bitM (bits3 (fieldY op))
  | 2, some r => .resR (bits3 (fieldY op)) r
  | 2, none => .resM (bits3 (fieldY op))
  | _, some r => .setR (bits3 (fieldY op)) r
  | _, none => .setM (bits3 (fieldY op))

/-- The rows of the ED page with x = 1 (R120), y and z being the opcode's fields. -/
def decodeEd1 (op b1 b2 : Byte) : Instr :=
  let y := fieldY op
  let pair := Rp.ofField (fieldP op)
  match fieldZ op with
  | 0 => match Reg8.ofField y with | some r => .inRC r | none => .inC
  | 1 => match Reg8.ofField y with | some r => .outCR r | none => .outC0
  | 2 => if fieldQ op then .adcHlSs pair else .sbcHlSs pair
  | 3 => if fieldQ op then .ldDdMem pair (join b2 b1) else .ldNnDd pair (join b2 b1)
  | 4 => .neg (bits3 y)
  | 5 => if y = 1 then .reti else .retn (bits3 y)
  | 6 =>
    match y % 4 with
    | 2 => .im1 (op.getLsbD 5)
    | 3 => .im2 (op.getLsbD 5)
    | _ => .im0 (op.getLsbD 5) (op.getLsbD 3)
  | _ =>
    match y with
    | 0 => .ldIA | 1 => .ldRA | 2 => .ldAI | 3 => .ldAR | 4 => .rrd | 5 => .rld | _ => .nopEd7 (op.getLsbD 3)

/-- The rows of the ED page with x = 2: the block instructions of R109 and the no-operations around them (R120). -/
def decodeEd2 (op : Byte) : Instr :=
  match fieldY op, fieldZ op with
  | 4, 0 => .ldi | 4, 1 => .cpi | 4, 2 => .ini | 4, 3 => .outi
  | 5, 0 => .ldd | 5, 1 => .cpd | 5, 2 => .ind | 5, 3 => .outd
  | 6, 0 => .ldir | 6, 1 => .cpir | 6, 2 => .inir | 6, 3 => .otir
  | 7, 0 => .lddr | 7, 1 => .cpdr | 7, 2 => .indr | 7, 3 => .otdr
  | y, z => .nopEd2 (bits3 y) (bits3 z)

/-- The ED page (R120). -/
def decodeEd (op b1 b2 : Byte) : Instr :=
  match fieldX op with
  | 0 => .nopEd0 (op.extractLsb' 0 6)
  | 1 => decodeEd1 op b1 b2
  | 2 => decodeEd2 op
  | _ => .nopEd3 (op.extractLsb' 0 6)

/-- The base-page rows with x = 0 (R114). -/
def decodeBase0 (op b1 b2 : Byte) : Instr :=
  let y := fieldY op
  let pair := Rp.ofField (fieldP op)
  match fieldZ op with
  | 0 =>
    match y with
    | 0 => .nop | 1 => .exAfAf | 2 => .djnz b1 | 3 => .jr b1 | _ => .jrCc (Cond.ofField (y - 4)) b1
  | 1 => if fieldQ op then .addHlSs pair else .ldDdNn pair (join b2 b1)
  | 2 =>
    match y with
    | 0 => .ldPairA .bc | 1 => .ldAPair .bc | 2 => .ldPairA .de | 3 => .ldAPair .de
    | 4 => .ldNnHl (join b2 b1) | 5 => .ldHlNn (join b2 b1) | 6 => .ldNnA (join b2 b1) | _ => .ldANn (join b2 b1)
  | 3 => if fieldQ op then .decSs pair else .incSs pair
  | 4 => match Reg8.ofField y with | some r => .incR r | none => .incM
  | 5 => match Reg8.ofField y with | some r => .decR r | none => .decM
  | 6 => match Reg8.ofField y with | some r => .ldRN r b1 | none => .ldMN b1
  | _ =>
    match y with
    | 0 => .rlca | 1 => .rrca | 2 => .rla | 3 => .rra | 4 => .daa | 5 => .cpl | 6 => .scf | _ => .ccf

/-- The base-page rows with x = 1 (R114). -/
def decodeBase1 (op : Byte) : Instr :=
  match Reg8.ofField (fieldY op), Reg8.ofField (fieldZ op) with
  | some r, some r' => .ldRR r r'
  | some r, none => .ldRM r
  | none, some r' => .ldMR r'
  | none, none => .halt

/-- The base-page rows with x = 2: `alu[y]` on a register or (HL) (R106, R114). -/
def decodeBase2 (op : Byte) : Instr :=
  match Reg8.ofField (fieldZ op) with
  | some r =>
    match fieldY op with
    | 0 => .addAR r | 1 => .adcAR r | 2 => .subR r | 3 => .sbcAR r | 4 => .andR r | 5 => .xorR r | 6 => .orR r | _ => .cpR r
  | none =>
    match fieldY op with
    | 0 => .addAM | 1 => .adcAM | 2 => .subM | 3 => .sbcAM | 4 => .andM | 5 => .xorM | 6 => .orM | _ => .cpM

/-- The base-page rows with x = 3 (R114); CB and ED lead to their own pages, DD and FD are prefix steps (R117, R118). -/
def decodeBase3 (op b1 b2 b3 : Byte) : Instr :=
  let y := fieldY op
  match fieldZ op with
  | 0 => .retCc (Cond.ofField y)
  | 1 =>
    if fieldQ op then
      match fieldP op with | 0 => .ret | 1 => .exx | 2 => .jpHl | _ => .ldSpHl
    else .popQq (Rp2.ofField (fieldP op))
  | 2 => .jpCcNn (Cond.ofField y) (join b2 b1)
  | 3 =>
    match y with
    | 0 => .jpNn (join b2 b1) | 1 => decodeCb b1 | 2 => .outNA b1 | 3 => .inAN b1
    | 4 => .exSpHl | 5 => .exDeHl | 6 => .di | _ => .ei
  | 4 => .callCcNn (Cond.ofField y) (join b2 b1)
  | 5 =>
    if fieldQ op then
      match fieldP op with
      | 0 => .callNn (join b2 b1) | 1 => .ddFdPrefix .ix | 2 => decodeEd b1 b2 b3 | _ => .ddFdPrefix .iy
    else .pushQq (Rp2.ofField (fieldP op))
  | 6 =>
    match y with
    | 0 => .addAN b1 | 1 => .adcAN b1 | 2 => .subN b1 | 3 => .sbcAN b1 | 4 => .andN b1 | 5 => .xorN b1 | 6 => .orN b1 | _ => .cpN b1
  | _ => .rst (bits3 y)

/-- The base page (R114), with the pages that its CB and ED bytes lead to. -/
def decodeBase (op b1 b2 b3 : Byte) : Instr :=
  match fieldX op with
  | 0 => decodeBase0 op b1 b2
  | 1 => decodeBase1 op
  | 2 => decodeBase2 op
  | _ => decodeBase3 op b1 b2 b3

/-- The DD CB / FD CB page (R121). -/
def decodeIndexCb (x : Idx) (d op : Byte) : Instr :=
  let copy := Reg8.ofField (fieldZ op)
  match fieldX op with
  | 0 =>
    match fieldY op with
    | 0 => .rlcXd x d copy | 1 => .rrcXd x d copy | 2 => .rlXd x d copy | 3 => .rrXd x d copy
    | 4 => .slaXd x d copy | 5 => .sraXd x d copy | 6 => .sllXd x d copy | _ => .srlXd x d copy
  | 1 => .bitXd x (bits3 (fieldY op)) d (bits3 (fieldZ op))
  | 2 => .resXd x (bits3 (fieldY op)) d copy
  | _ => .setXd x (bits3 (fieldY op)) d copy

/-- The indexable opcodes with x = 0 under DD or FD (R113, R116). -/
def decodeIndexed0 (x : Idx) (op b1 b2 : Byte) : Instr :=
  let half := Half.ofBit (op.getLsbD 3)
  match fieldZ op with
  | 1 => if fieldQ op then .addIxPp x (RpX.ofField (fieldP op)) else .ldIxNn x (join b2 b1)
  | 2 => if fieldQ op then .ldIxMem x (join b2 b1) else .ldNnIx x (join b2 b1)
  | 3 => if fieldQ op then .decIx x else .incIx x
  | 4 => if fieldY op = 6 then .incXd x b1 else .incXh x half
  | 5 => if fieldY op = 6 then .decXd x b1 else .decXh x half
  | _ => if fieldY op = 6 then .ldXdN x b1 b2 else .ldXhN x half b1

/-- The indexable opcodes with x = 1: with a memory operand the other register is the real H or L (R113 case 1), without
one both are read with the halves (case 2). -/
def decodeIndexed1 (x : Idx) (op b1 : Byte) : Instr :=
  match Reg8.ofField (fieldY op), Reg8.ofField (fieldZ op) with
  | some r, none => .ldRXd x r b1
  | none, some r => .ldXdR x r b1
  | _, _ =>
    match RegX.ofField (fieldY op), RegX.ofField (fieldZ op) with
    | some r, some r' => .ldRRX x r r'
    | _, _ => .halt

/-- The indexable opcodes with x = 2: `alu[y]` on (IX+d) or a half (R113, 42_alu8.md R280). -/
def decodeIndexed2 (x : Idx) (op b1 : Byte) : Instr :=
  let half := Half.ofBit (op.getLsbD 0)
  if fieldZ op = 6 then
    match fieldY op with
    | 0 => .addAXd x b1 | 1 => .adcAXd x b1 | 2 => .subXd x b1 | 3 => .sbcAXd x b1
    | 4 => .andXd x b1 | 5 => .xorXd x b1 | 6 => .orXd x b1 | _ => .cpXd x b1
  else
    match fieldY op with
    | 0 => .addAXh x half | 1 => .adcAXh x half | 2 => .subXh x half | 3 => .sbcAXh x half
    | 4 => .andXh x half | 5 => .xorXh x half | 6 => .orXh x half | _ => .cpXh x half

/-- The indexable opcodes with x = 3: E1, E3, E5, E9, F9 (R116). -/
def decodeIndexed3 (x : Idx) (op : Byte) : Instr :=
  match fieldZ op with
  | 1 => if fieldQ op then (if fieldP op = 2 then .jpIx x else .ldSpIx x) else .popIx x
  | 3 => .exSpIx x
  | _ => .pushIx x

/-- The DD/FD page (R116): an indexable opcode is substituted (R113), CB selects the DD CB page, DD and FD are a new
prefix (R117), and before ED or any other opcode the prefix is ignored (48_cpu_control.md R504). -/
def decodeIndex (x : Idx) (op b1 b2 b3 : Byte) : Instr :=
  if op = 0xCB#8 then decodeIndexCb x b1 b2
  else if op = 0xDD#8 then .prefixAgain .ix
  else if op = 0xFD#8 then .prefixAgain .iy
  else if indexable op then
    match fieldX op with
    | 0 => decodeIndexed0 x op b1 b2
    | 1 => decodeIndexed1 x op b1
    | 2 => decodeIndexed2 x op b1
    | _ => decodeIndexed3 x op
  else decodeBase op b1 b2 b3

/-- The decoder of one step (R118): the instruction that the byte `op` and the three bytes after it give under the prefix
latch. -/
def decodeAt (latch : Option Idx) (op b1 b2 b3 : Byte) : Instr :=
  match latch with
  | none => decodeBase op b1 b2 b3
  | some x => decodeIndex x op b1 b2 b3

/-! ### Rows that name another row's words -/

/-- The five rows "CB prefix", "ED prefix", "DD CB / FD CB", "ED after DD/FD" and "prefix ignored" name words that decode to
an instruction of another row (R118, R504; log entry 10); `resolve` gives that instruction, and every other instruction is
its own. -/
def Instr.resolve : Instr → Instr
  | .cbPrefix op => decodeCb op
  | .edPrefix op b1 b2 => decodeEd op b1 b2
  | .ddCb x d op => decodeIndexCb x d op
  | .edAfterIndex _ op b1 b2 => decodeEd op b1 b2
  | .prefixIgnored _ op b1 b2 => decodeBase op b1 b2 0x00#8
  | i => i

/-! ### The encoder -/

/-- The five decode tables (R101). -/
inductive Layer where
  | base | cb | ed | index | indexCb
  deriving DecidableEq, Repr

/-- The decode table an instruction stands in (spec/opcode_table.json, "format"). The five naming rows are given the table
of their first byte here; `resolve` comes first wherever it matters. -/
def Instr.layer : Instr → Layer
  | .nop | .exAfAf | .djnz _ | .jr _ | .jrCc _ _ | .ldDdNn _ _ | .addHlSs _ | .ldPairA _ | .ldAPair _ | .ldNnHl _
  | .ldHlNn _ | .ldNnA _ | .ldANn _ | .incSs _ | .decSs _ | .incR _ | .incM | .decR _ | .decM | .ldRN _ _ | .ldMN _
  | .rlca | .rrca | .rla | .rra | .daa | .cpl | .scf | .ccf | .ldRR _ _ | .ldRM _ | .ldMR _ | .halt | .addAR _
  | .addAM | .addAN _ | .adcAR _ | .adcAM | .adcAN _ | .subR _ | .subM | .subN _ | .sbcAR _ | .sbcAM | .sbcAN _
  | .andR _ | .andM | .andN _ | .xorR _ | .xorM | .xorN _ | .orR _ | .orM | .orN _ | .cpR _ | .cpM | .cpN _
  | .retCc _ | .popQq _ | .ret | .exx | .jpHl | .ldSpHl | .jpCcNn _ _ | .jpNn _ | .cbPrefix _ | .outNA _ | .inAN _
  | .exSpHl | .exDeHl | .di | .ei | .callCcNn _ _ | .pushQq _ | .callNn _ | .ddFdPrefix _ | .edPrefix _ _ _
  | .rst _ => .base
  | .rlcR _ | .rlcM | .rrcR _ | .rrcM | .rlR _ | .rlM | .rrR _ | .rrM | .slaR _ | .slaM | .sraR _ | .sraM | .sllR _
  | .sllM | .srlR _ | .srlM | .bitR _ _ | .bitM _ | .resR _ _ | .resM _ | .setR _ _ | .setM _ => .cb
  | .inRC _ | .inC | .outCR _ | .outC0 | .sbcHlSs _ | .adcHlSs _ | .ldNnDd _ _ | .ldDdMem _ _ | .neg _ | .reti
  | .retn _ | .im0 _ _ | .im1 _ | .im2 _ | .ldIA | .ldRA | .ldAI | .ldAR | .rrd | .rld | .nopEd7 _ | .ldi | .cpi
  | .ini | .outi | .ldd | .cpd | .ind | .outd | .ldir | .cpir | .inir | .otir | .lddr | .cpdr | .indr | .otdr
  | .nopEd0 _ | .nopEd2 _ _ | .nopEd3 _ => .ed
  | .addIxPp _ _ | .ldIxNn _ _ | .ldNnIx _ _ | .incIx _ | .incXh _ _ | .decXh _ _ | .ldXhN _ _ _ | .ldIxMem _ _
  | .decIx _ | .incXd _ _ | .decXd _ _ | .ldXdN _ _ _ | .ldRXd _ _ _ | .ldXdR _ _ _ | .ldRRX _ _ _ | .addAXh _ _
  | .addAXd _ _ | .adcAXh _ _ | .adcAXd _ _ | .subXh _ _ | .subXd _ _ | .sbcAXh _ _ | .sbcAXd _ _ | .andXh _ _
  | .andXd _ _ | .xorXh _ _ | .xorXd _ _ | .orXh _ _ | .orXd _ _ | .cpXh _ _ | .cpXd _ _ | .ddCb _ _ _ | .popIx _
  | .exSpIx _ | .pushIx _ | .jpIx _ | .ldSpIx _ | .prefixAgain _ | .edAfterIndex _ _ _ _ | .prefixIgnored _ _ _ _ => .index
  | .rlcXd _ _ _ | .rrcXd _ _ _ | .rlXd _ _ _ | .rrXd _ _ _ | .slaXd _ _ _ | .sraXd _ _ _ | .sllXd _ _ _
  | .srlXd _ _ _ | .bitXd _ _ _ _ | .resXd _ _ _ _ | .setXd _ _ _ _ => .indexCb

/-- The one-byte opcodes `00 yyy zzz`, `01 yyy zzz`, `10 yyy zzz`, `11 yyy zzz` (R102). -/
def opXYZ (x : BitVec 2) (y z : BitVec 3) : Byte := x ++ y ++ z

/-- The one-byte opcodes with fields p and q, `xx pp q zzz` (R102). -/
def opXPQZ (x : BitVec 2) (p : BitVec 2) (q : BitVec 1) (z : BitVec 3) : Byte := x ++ p ++ q ++ z

/-- The z field of IXh (4) or IXl (5) (R280). -/
def Half.z (h : Half) : BitVec 3 := 2#2 ++ h.field

/-- The bytes an instruction's own step fetches, of an instruction that is its own `resolve`: without the DD or FD of an
earlier prefix step (R114, R115, R116, R120, R121; operands R110, R111, R112). -/
def Instr.coreBody : Instr → List Byte
  | .nop => [0x00#8]
  | .exAfAf => [0x08#8]
  | .djnz e => [0x10#8, e]
  | .jr e => [0x18#8, e]
  | .jrCc cc e => [opXYZ 0#2 (4#3 ||| cc.field) 0#3, e]
  | .ldDdNn p nn => [opXPQZ 0#2 p.field 0#1 1#3, lo nn, hi nn]
  | .addHlSs p => [opXPQZ 0#2 p.field 1#1 1#3]
  | .ldPairA p => [opXPQZ 0#2 (0#1 ++ p.field) 0#1 2#3]
  | .ldAPair p => [opXPQZ 0#2 (0#1 ++ p.field) 1#1 2#3]
  | .ldNnHl nn => [0x22#8, lo nn, hi nn]
  | .ldHlNn nn => [0x2A#8, lo nn, hi nn]
  | .ldNnA nn => [0x32#8, lo nn, hi nn]
  | .ldANn nn => [0x3A#8, lo nn, hi nn]
  | .incSs p => [opXPQZ 0#2 p.field 0#1 3#3]
  | .decSs p => [opXPQZ 0#2 p.field 1#1 3#3]
  | .incR r => [opXYZ 0#2 r.field 4#3]
  | .incM => [0x34#8]
  | .decR r => [opXYZ 0#2 r.field 5#3]
  | .decM => [0x35#8]
  | .ldRN r n => [opXYZ 0#2 r.field 6#3, n]
  | .ldMN n => [0x36#8, n]
  | .rlca => [0x07#8]
  | .rrca => [0x0F#8]
  | .rla => [0x17#8]
  | .rra => [0x1F#8]
  | .daa => [0x27#8]
  | .cpl => [0x2F#8]
  | .scf => [0x37#8]
  | .ccf => [0x3F#8]
  | .ldRR r r' => [opXYZ 1#2 r.field r'.field]
  | .ldRM r => [opXYZ 1#2 r.field 6#3]
  | .ldMR r => [opXYZ 1#2 6#3 r.field]
  | .halt => [0x76#8]
  | .addAR r => [opXYZ 2#2 0#3 r.field]
  | .addAM => [opXYZ 2#2 0#3 6#3]
  | .addAN n => [opXYZ 3#2 0#3 6#3, n]
  | .adcAR r => [opXYZ 2#2 1#3 r.field]
  | .adcAM => [opXYZ 2#2 1#3 6#3]
  | .adcAN n => [opXYZ 3#2 1#3 6#3, n]
  | .subR r => [opXYZ 2#2 2#3 r.field]
  | .subM => [opXYZ 2#2 2#3 6#3]
  | .subN n => [opXYZ 3#2 2#3 6#3, n]
  | .sbcAR r => [opXYZ 2#2 3#3 r.field]
  | .sbcAM => [opXYZ 2#2 3#3 6#3]
  | .sbcAN n => [opXYZ 3#2 3#3 6#3, n]
  | .andR r => [opXYZ 2#2 4#3 r.field]
  | .andM => [opXYZ 2#2 4#3 6#3]
  | .andN n => [opXYZ 3#2 4#3 6#3, n]
  | .xorR r => [opXYZ 2#2 5#3 r.field]
  | .xorM => [opXYZ 2#2 5#3 6#3]
  | .xorN n => [opXYZ 3#2 5#3 6#3, n]
  | .orR r => [opXYZ 2#2 6#3 r.field]
  | .orM => [opXYZ 2#2 6#3 6#3]
  | .orN n => [opXYZ 3#2 6#3 6#3, n]
  | .cpR r => [opXYZ 2#2 7#3 r.field]
  | .cpM => [opXYZ 2#2 7#3 6#3]
  | .cpN n => [opXYZ 3#2 7#3 6#3, n]
  | .retCc cc => [opXYZ 3#2 cc.field 0#3]
  | .popQq p => [opXPQZ 3#2 p.field 0#1 1#3]
  | .ret => [0xC9#8]
  | .exx => [0xD9#8]
  | .jpHl => [0xE9#8]
  | .ldSpHl => [0xF9#8]
  | .jpCcNn cc nn => [opXYZ 3#2 cc.field 2#3, lo nn, hi nn]
  | .jpNn nn => [0xC3#8, lo nn, hi nn]
  | .outNA n => [0xD3#8, n]
  | .inAN n => [0xDB#8, n]
  | .exSpHl => [0xE3#8]
  | .exDeHl => [0xEB#8]
  | .di => [0xF3#8]
  | .ei => [0xFB#8]
  | .callCcNn cc nn => [opXYZ 3#2 cc.field 4#3, lo nn, hi nn]
  | .pushQq p => [opXPQZ 3#2 p.field 0#1 5#3]
  | .callNn nn => [0xCD#8, lo nn, hi nn]
  | .ddFdPrefix x => [x.byte]
  | .rst y => [opXYZ 3#2 y 7#3]
  | .rlcR r => [0xCB#8, opXYZ 0#2 0#3 r.field]
  | .rlcM => [0xCB#8, opXYZ 0#2 0#3 6#3]
  | .rrcR r => [0xCB#8, opXYZ 0#2 1#3 r.field]
  | .rrcM => [0xCB#8, opXYZ 0#2 1#3 6#3]
  | .rlR r => [0xCB#8, opXYZ 0#2 2#3 r.field]
  | .rlM => [0xCB#8, opXYZ 0#2 2#3 6#3]
  | .rrR r => [0xCB#8, opXYZ 0#2 3#3 r.field]
  | .rrM => [0xCB#8, opXYZ 0#2 3#3 6#3]
  | .slaR r => [0xCB#8, opXYZ 0#2 4#3 r.field]
  | .slaM => [0xCB#8, opXYZ 0#2 4#3 6#3]
  | .sraR r => [0xCB#8, opXYZ 0#2 5#3 r.field]
  | .sraM => [0xCB#8, opXYZ 0#2 5#3 6#3]
  | .sllR r => [0xCB#8, opXYZ 0#2 6#3 r.field]
  | .sllM => [0xCB#8, opXYZ 0#2 6#3 6#3]
  | .srlR r => [0xCB#8, opXYZ 0#2 7#3 r.field]
  | .srlM => [0xCB#8, opXYZ 0#2 7#3 6#3]
  | .bitR b r => [0xCB#8, opXYZ 1#2 b r.field]
  | .bitM b => [0xCB#8, opXYZ 1#2 b 6#3]
  | .resR b r => [0xCB#8, opXYZ 2#2 b r.field]
  | .resM b => [0xCB#8, opXYZ 2#2 b 6#3]
  | .setR b r => [0xCB#8, opXYZ 3#2 b r.field]
  | .setM b => [0xCB#8, opXYZ 3#2 b 6#3]
  | .inRC r => [0xED#8, opXYZ 1#2 r.field 0#3]
  | .inC => [0xED#8, 0x70#8]
  | .outCR r => [0xED#8, opXYZ 1#2 r.field 1#3]
  | .outC0 => [0xED#8, 0x71#8]
  | .sbcHlSs p => [0xED#8, opXPQZ 1#2 p.field 0#1 2#3]
  | .adcHlSs p => [0xED#8, opXPQZ 1#2 p.field 1#1 2#3]
  | .ldNnDd p nn => [0xED#8, opXPQZ 1#2 p.field 0#1 3#3, lo nn, hi nn]
  | .ldDdMem p nn => [0xED#8, opXPQZ 1#2 p.field 1#1 3#3, lo nn, hi nn]
  | .neg y => [0xED#8, opXYZ 1#2 y 4#3]
  | .reti => [0xED#8, 0x4D#8]
  | .retn y => [0xED#8, opXYZ 1#2 y 5#3]
  | .im0 y5 y3 => [0xED#8, opXYZ 1#2 (BitVec.ofBool y5 ++ 0#1 ++ BitVec.ofBool y3) 6#3]
  | .im1 y5 => [0xED#8, opXYZ 1#2 (BitVec.ofBool y5 ++ 2#2) 6#3]
  | .im2 y5 => [0xED#8, opXYZ 1#2 (BitVec.ofBool y5 ++ 3#2) 6#3]
  | .ldIA => [0xED#8, 0x47#8]
  | .ldRA => [0xED#8, 0x4F#8]
  | .ldAI => [0xED#8, 0x57#8]
  | .ldAR => [0xED#8, 0x5F#8]
  | .rrd => [0xED#8, 0x67#8]
  | .rld => [0xED#8, 0x6F#8]
  | .nopEd7 y3 => [0xED#8, opXYZ 1#2 (3#2 ++ BitVec.ofBool y3) 7#3]
  | .ldi => [0xED#8, 0xA0#8]
  | .cpi => [0xED#8, 0xA1#8]
  | .ini => [0xED#8, 0xA2#8]
  | .outi => [0xED#8, 0xA3#8]
  | .ldd => [0xED#8, 0xA8#8]
  | .cpd => [0xED#8, 0xA9#8]
  | .ind => [0xED#8, 0xAA#8]
  | .outd => [0xED#8, 0xAB#8]
  | .ldir => [0xED#8, 0xB0#8]
  | .cpir => [0xED#8, 0xB1#8]
  | .inir => [0xED#8, 0xB2#8]
  | .otir => [0xED#8, 0xB3#8]
  | .lddr => [0xED#8, 0xB8#8]
  | .cpdr => [0xED#8, 0xB9#8]
  | .indr => [0xED#8, 0xBA#8]
  | .otdr => [0xED#8, 0xBB#8]
  | .nopEd0 x => [0xED#8, 0#2 ++ x]
  | .nopEd2 y z => [0xED#8, opXYZ 2#2 y z]
  | .nopEd3 x => [0xED#8, 3#2 ++ x]
  | .addIxPp _ p => [opXPQZ 0#2 p.field 1#1 1#3]
  | .ldIxNn _ nn => [0x21#8, lo nn, hi nn]
  | .ldNnIx _ nn => [0x22#8, lo nn, hi nn]
  | .incIx _ => [0x23#8]
  | .incXh _ h => [opXYZ 0#2 h.z 4#3]
  | .decXh _ h => [opXYZ 0#2 h.z 5#3]
  | .ldXhN _ h n => [opXYZ 0#2 h.z 6#3, n]
  | .ldIxMem _ nn => [0x2A#8, lo nn, hi nn]
  | .decIx _ => [0x2B#8]
  | .incXd _ d => [0x34#8, d]
  | .decXd _ d => [0x35#8, d]
  | .ldXdN _ d n => [0x36#8, d, n]
  | .ldRXd _ r d => [opXYZ 1#2 r.field 6#3, d]
  | .ldXdR _ r d => [opXYZ 1#2 6#3 r.field, d]
  | .ldRRX _ r r' => [opXYZ 1#2 r.field r'.field]
  | .addAXh _ h => [opXYZ 2#2 0#3 h.z]
  | .addAXd _ d => [opXYZ 2#2 0#3 6#3, d]
  | .adcAXh _ h => [opXYZ 2#2 1#3 h.z]
  | .adcAXd _ d => [opXYZ 2#2 1#3 6#3, d]
  | .subXh _ h => [opXYZ 2#2 2#3 h.z]
  | .subXd _ d => [opXYZ 2#2 2#3 6#3, d]
  | .sbcAXh _ h => [opXYZ 2#2 3#3 h.z]
  | .sbcAXd _ d => [opXYZ 2#2 3#3 6#3, d]
  | .andXh _ h => [opXYZ 2#2 4#3 h.z]
  | .andXd _ d => [opXYZ 2#2 4#3 6#3, d]
  | .xorXh _ h => [opXYZ 2#2 5#3 h.z]
  | .xorXd _ d => [opXYZ 2#2 5#3 6#3, d]
  | .orXh _ h => [opXYZ 2#2 6#3 h.z]
  | .orXd _ d => [opXYZ 2#2 6#3 6#3, d]
  | .cpXh _ h => [opXYZ 2#2 7#3 h.z]
  | .cpXd _ d => [opXYZ 2#2 7#3 6#3, d]
  | .popIx _ => [0xE1#8]
  | .exSpIx _ => [0xE3#8]
  | .pushIx _ => [0xE5#8]
  | .jpIx _ => [0xE9#8]
  | .ldSpIx _ => [0xF9#8]
  | .prefixAgain x => [x.byte]
  | .rlcXd _ d r => [0xCB#8, d, opXYZ 0#2 0#3 (copyField r)]
  | .rrcXd _ d r => [0xCB#8, d, opXYZ 0#2 1#3 (copyField r)]
  | .rlXd _ d r => [0xCB#8, d, opXYZ 0#2 2#3 (copyField r)]
  | .rrXd _ d r => [0xCB#8, d, opXYZ 0#2 3#3 (copyField r)]
  | .slaXd _ d r => [0xCB#8, d, opXYZ 0#2 4#3 (copyField r)]
  | .sraXd _ d r => [0xCB#8, d, opXYZ 0#2 5#3 (copyField r)]
  | .sllXd _ d r => [0xCB#8, d, opXYZ 0#2 6#3 (copyField r)]
  | .srlXd _ d r => [0xCB#8, d, opXYZ 0#2 7#3 (copyField r)]
  | .bitXd _ b d z => [0xCB#8, d, opXYZ 1#2 b z]
  | .resXd _ b d r => [0xCB#8, d, opXYZ 2#2 b (copyField r)]
  | .setXd _ b d r => [0xCB#8, d, opXYZ 3#2 b (copyField r)]
  | .cbPrefix _ | .edPrefix _ _ _ | .ddCb _ _ _ | .edAfterIndex _ _ _ _ | .prefixIgnored _ _ _ _ => []

/-- The bytes an instruction's own step fetches (without the DD or FD of an earlier prefix step). -/
def Instr.body (i : Instr) : List Byte := i.resolve.coreBody

/-- The prefix latch an instruction is decoded under. A prefix byte after a prefix byte has one of the two; IX stands for
both (R117). -/
def Instr.latch : Instr → Option Idx
  | .nop | .exAfAf | .djnz _ | .jr _ | .jrCc _ _ | .ldDdNn _ _ | .addHlSs _ | .ldPairA _ | .ldAPair _ | .ldNnHl _
  | .ldHlNn _ | .ldNnA _ | .ldANn _ | .incSs _ | .decSs _ | .incR _ | .incM | .decR _ | .decM | .ldRN _ _ | .ldMN _
  | .rlca | .rrca | .rla | .rra | .daa | .cpl | .scf | .ccf | .ldRR _ _ | .ldRM _ | .ldMR _ | .halt | .addAR _
  | .addAM | .addAN _ | .adcAR _ | .adcAM | .adcAN _ | .subR _ | .subM | .subN _ | .sbcAR _ | .sbcAM | .sbcAN _
  | .andR _ | .andM | .andN _ | .xorR _ | .xorM | .xorN _ | .orR _ | .orM | .orN _ | .cpR _ | .cpM | .cpN _
  | .retCc _ | .popQq _ | .ret | .exx | .jpHl | .ldSpHl | .jpCcNn _ _ | .jpNn _ | .cbPrefix _ | .outNA _ | .inAN _
  | .exSpHl | .exDeHl | .di | .ei | .callCcNn _ _ | .pushQq _ | .callNn _ | .ddFdPrefix _ | .edPrefix _ _ _
  | .rst _ | .rlcR _ | .rlcM | .rrcR _ | .rrcM | .rlR _ | .rlM | .rrR _ | .rrM | .slaR _ | .slaM | .sraR _ | .sraM
  | .sllR _ | .sllM | .srlR _ | .srlM | .bitR _ _ | .bitM _ | .resR _ _ | .resM _ | .setR _ _ | .setM _ | .inRC _
  | .inC | .outCR _ | .outC0 | .sbcHlSs _ | .adcHlSs _ | .ldNnDd _ _ | .ldDdMem _ _ | .neg _ | .reti | .retn _
  | .im0 _ _ | .im1 _ | .im2 _ | .ldIA | .ldRA | .ldAI | .ldAR | .rrd | .rld | .nopEd7 _ | .ldi | .cpi | .ini
  | .outi | .ldd | .cpd | .ind | .outd | .ldir | .cpir | .inir | .otir | .lddr | .cpdr | .indr | .otdr | .nopEd0 _
  | .nopEd2 _ _ | .nopEd3 _ => none
  | .addIxPp x _ | .ldIxNn x _ | .ldNnIx x _ | .incIx x | .incXh x _ | .decXh x _ | .ldXhN x _ _ | .ldIxMem x _
  | .decIx x | .incXd x _ | .decXd x _ | .ldXdN x _ _ | .ldRXd x _ _ | .ldXdR x _ _ | .ldRRX x _ _ | .addAXh x _
  | .addAXd x _ | .adcAXh x _ | .adcAXd x _ | .subXh x _ | .subXd x _ | .sbcAXh x _ | .sbcAXd x _ | .andXh x _
  | .andXd x _ | .xorXh x _ | .xorXd x _ | .orXh x _ | .orXd x _ | .cpXh x _ | .cpXd x _ | .ddCb x _ _ | .popIx x
  | .exSpIx x | .pushIx x | .jpIx x | .ldSpIx x | .edAfterIndex x _ _ _ | .prefixIgnored x _ _ _ | .rlcXd x _ _
  | .rrcXd x _ _ | .rlXd x _ _ | .rrXd x _ _ | .slaXd x _ _ | .sraXd x _ _ | .sllXd x _ _ | .srlXd x _ _
  | .bitXd x _ _ _ | .resXd x _ _ _ | .setXd x _ _ _ => some x
  | .prefixAgain _ => some .ix

/-- The words of an instruction: the DD or FD of its prefix, if it has one, then its body (R100). -/
def Instr.encode (i : Instr) : List Byte :=
  match i.latch with
  | none => i.body
  | some x => x.byte :: i.body

/-- The length of an instruction, a fetched prefix byte included (R119). -/
def Instr.length (i : Instr) : Nat := i.encode.length

/-- How many of the body's bytes are M1 opcode fetches: the opcode byte, and the byte after CB or ED (R118, 10_state.md R35).
The d and op bytes of DD CB d op are operand reads. -/
def Instr.m1Fetches (i : Instr) : Nat :=
  match i.resolve.layer with
  | .cb | .ed => 2
  | .base | .index | .indexCb => 1

/-- How many of the body's bytes are operand reads. -/
def Instr.operandReads (i : Instr) : Nat := i.body.length - i.m1Fetches

/-! ### Byte lists -/

/-- Why a byte list is rejected: it ends before the instruction does. No complete instruction is rejected (R122). -/
inductive DecodeReject where
  | truncated
  deriving DecidableEq, Repr

/-- Decode one step's instruction from the front of a byte list, and give the bytes after it. -/
def decode (latch : Option Idx) (bytes : List Byte) : Except DecodeReject (Instr × List Byte) :=
  match bytes with
  | [] => .error .truncated
  | op :: rest =>
    let i := decodeAt latch op (rest.getD 0 0#8) (rest.getD 1 0#8) (rest.getD 2 0#8)
    if i.body.length ≤ bytes.length then .ok (i, bytes.drop i.body.length) else .error .truncated

/-- Decode an instruction with its prefix byte: a DD or FD with a byte after it is that byte's prefix, a lone DD or FD is a
prefix step of its own (R117). -/
def decodeWords (bytes : List Byte) : Except DecodeReject (Instr × List Byte) :=
  match bytes with
  | b :: c :: rest =>
    if b = 0xDD#8 ∨ b = 0xFD#8 then decode (some (Idx.ofByte b)) (c :: rest) else decode none bytes
  | _ => decode none bytes

/-! ### Words numbered as spec/opcode_table.json numbers them -/

/-- Byte `k` of an instruction word of `nbits` bits; the bits above are 0. -/
def wordByte (nbits w k : Nat) : Byte := BitVec.ofNat 8 (w % 2 ^ nbits / 256 ^ k)

/-- The latch and the four bytes that an instruction word stands for: a word longer than one byte that begins with DD or FD
is the prefix followed by the instruction's own step (log entry 14). -/
def wordStep (nbits w : Nat) : Option Idx × Byte × Byte × Byte × Byte :=
  let b := wordByte nbits w
  if 8 < nbits ∧ (b 0 = 0xDD#8 ∨ b 0 = 0xFD#8) then (some (Idx.ofByte (b 0)), b 1, b 2, b 3, b 4)
  else (none, b 0, b 1, b 2, b 3)

/-- The instruction the decoder reads from an instruction word. -/
def decodeTableWord (nbits w : Nat) : Option Instr :=
  let s := wordStep nbits w
  some (decodeAt s.1 s.2.1 s.2.2.1 s.2.2.2.1 s.2.2.2.2)

end Sys2Proof
end

