-- ==== Sys2Proof/Config.lean ====
section
/-! DEFINITION. What a machine is configured with: the named parameters of 00_scope.md R8, the fixed addresses of
20_memory.md R79, what an unlisted memory byte reads as, and the free values: bytes that the collaborator chooses and
no rule constrains. -/

namespace Sys2Proof.Config

/-- `BLOCK_REPEAT_XY` (00_scope.md R8, 46_block.md R456, D14): the flags after a repeating block iteration. -/
inductive BlockRepeatXY where
  /-- The flags of the single form; the value the spec defines. -/
  | asSingle
  /-- Later hardware findings; the spec gives no formula, so a repeating iteration is refused (D14). -/
  | pcHigh
  deriving DecidableEq, Repr

/-- `BreakpointHook` (00_scope.md R8, 60_exceptions.md R620): what the hook does with the opcode it is given. -/
inductive HookKind where
  /-- It answers the opcode it was given; the default. -/
  | identity
  /-- It may answer any byte (D10): the next one the collaborator has ready, else a free value. -/
  | oracle
  deriving DecidableEq, Repr

/-- The parameters of 00_scope.md R8 that have more than one value. (`IM0_NON_RST` has the one value `refuse`;
`TIMING_HOOKS` changes no state: log entries 16 and 17.) -/
structure Params where
  /-- `BLOCK_REPEAT_XY`. -/
  blockRepeatXY : BlockRepeatXY
  /-- `LDAIR_PV_QUIRK` (D15): an INT accepted right after LD A,I or LD A,R clears the PV that it wrote. -/
  ldairPvQuirk : Bool
  /-- `Q_ON_POP_EX_AF` (D13): POP AF and EX AF,AF' set Q. -/
  qOnPopExAF : Bool
  /-- `BreakpointHook`. -/
  breakpointHook : HookKind
  deriving DecidableEq, Repr

/-- The defaults of 00_scope.md R8: `as_single`, `false`, `false`, `identity`. -/
def Params.default : Params :=
  { blockRepeatXY := .asSingle, ldairPvQuirk := false, qOnPopExAF := false, breakpointHook := .identity }

/-- The byte an unlisted memory address reads as. DESIGN CHOICE, unsafe (log entry 1): the spec leaves the initial
contents to the launch (20_memory.md R84). -/
def unlistedByte : Byte := 0x00#8

/-- Free value: the byte port-in answers at the `n`-th draw, for a port (20_memory.md R85: "no law relates it to earlier
writes"). Log entry 2. -/
opaque portByte : Nat → Word → Byte

/-- Free value: the byte int-ack answers at the `n`-th draw (60_exceptions.md R608, D6). Log entry 3. -/
opaque ackByte : Nat → Byte

/-- Free value: the byte the breakpoint hook answers at the `n`-th draw, for an address and an opcode, where it is an oracle
(60_exceptions.md R620, D10). Log entry 4. -/
opaque hookByte : Nat → Word → Byte → Byte

/-- Where NMI entry goes (20_memory.md R79, 60_exceptions.md R607). -/
def nmiVector : Word := 0x0066#16

/-- Where an IM 1 interrupt goes (20_memory.md R79, 60_exceptions.md R610). -/
def im1Vector : Word := 0x0038#16

end Sys2Proof.Config
end

