-- ==== Sys2Proof/Machine/State.lean ====
section
/-! DEFINITION. The state of the machine (10_state.md R20 to R47, R50), as plain data, and the state right after reset.
INVENTORY.md, "State", lists each field with its rule. The last fields are the model's own: the record of bus requests, the
answers the collaborator has ready, and what `Step()` returned. -/

namespace Sys2Proof.Machine

/-- Memory: the listed cells, addresses strictly rising and no cell equal to what an unlisted address reads as
(20_memory.md R84; `Memory.wf` states the form). -/
abbrev Memory := List Host.Cell

/-- A request of the core to its bus collaborator, or a notification (20_memory.md R87). -/
inductive BusEvent where
  /-- fetch-opcode(a): an M1 fetch (20_memory.md R72). -/
  | fetchOpcode (addr : Word)
  /-- read-byte(a). -/
  | readByte (addr : Word)
  /-- write-byte(a, v). -/
  | writeByte (addr : Word) (value : Byte)
  /-- port-in(p). -/
  | portIn (port : Word)
  /-- port-out(p, v): the output event of 20_memory.md R85. -/
  | portOut (port : Word) (value : Byte)
  /-- int-ack() (60_exceptions.md R608). -/
  | intAck
  /-- breakpoint-hook(a, op) (60_exceptions.md R620). -/
  | breakpointHook (addr : Word) (op : Byte)
  /-- instruction-complete() (60_exceptions.md R621). -/
  | instructionComplete
  deriving DecidableEq, Repr

/-- What a `Step()` returns (60_exceptions.md R601). -/
inductive StepKind where
  | reset | nmi | int | halt | insn | pfx
  deriving DecidableEq, Repr

/-- The machine's state. -/
structure State where
  /-- Main register set (10_state.md R20); the pairs are views (R21). F is the flag byte (R27). -/
  a : Byte
  f : Byte
  b : Byte
  c : Byte
  d : Byte
  e : Byte
  h : Byte
  l : Byte
  /-- Alternate register set A', F', … (10_state.md R22). -/
  aAlt : Byte
  fAlt : Byte
  bAlt : Byte
  cAlt : Byte
  dAlt : Byte
  eAlt : Byte
  hAlt : Byte
  lAlt : Byte
  /-- Index registers (10_state.md R23). -/
  ix : Word
  iy : Word
  /-- Stack pointer (10_state.md R24). -/
  sp : Word
  /-- Program counter (10_state.md R25). -/
  pc : Word
  /-- Interrupt-vector register (10_state.md R34). -/
  i : Byte
  /-- Refresh register: R[6:0] the counter, R[7] the held bit (10_state.md R35). -/
  r : Byte
  /-- Hidden address latch (10_state.md R43). -/
  memptr : Word
  /-- Interrupt-enable flip-flops (10_state.md R36). -/
  iff1 : Bool
  iff2 : Bool
  /-- Interrupt mode (10_state.md R37). -/
  im : IntMode
  /-- The one-instruction delay of EI (10_state.md R38). -/
  pendingEI : Bool
  /-- Halted (10_state.md R39). -/
  halted : Bool
  /-- One-shot NMI pending (10_state.md R40). -/
  nmiPending : Bool
  /-- Level of the maskable-interrupt line (10_state.md R41). -/
  intLine : Bool
  /-- Pin-reset request (10_state.md R42). -/
  resetRequest : Bool
  /-- Whether this, and the previous, instruction wrote F (10_state.md R45). -/
  q : Bool
  lastQ : Bool
  /-- Prefix latch: none, IX or IY (10_state.md R46). -/
  pfx : Option Idx
  /-- The enabled breakpoints, as the strictly rising list of their addresses (10_state.md R47). -/
  breakpoints : List Nat
  /-- The collaborator's store M (20_memory.md R84). -/
  mem : Memory
  /-- MODEL: the requests issued since construction, newest first (log entry 7). -/
  bus : List BusEvent
  /-- MODEL: the bytes the collaborator has ready to answer port-in with, first one next (log entry 5). -/
  portAnswers : List Byte
  /-- MODEL: the same for int-ack. -/
  ackAnswers : List Byte
  /-- MODEL: the same for breakpoint-hook, read where the hook is an oracle. -/
  hookAnswers : List Byte
  /-- MODEL: how many answers have been drawn; the free values are applied to it. -/
  draws : Nat
  /-- The parameters of 00_scope.md R8; no step changes them (log entry 6). -/
  params : Config.Params
  /-- MODEL: the last instruction was LD A,I or LD A,R; read only under LDAIR_PV_QUIRK (D15, log entry 9). -/
  lastLdAIR : Bool
  /-- MODEL: what the last `Step()` returned (log entry 8). -/
  kind : StepKind
  deriving DecidableEq, Repr

/-- The reasons a step can stop with a fault: none. The core raises no exception, trap or fault of its own
(60_exceptions.md R600), so this type has no constructor. -/
inductive Fault where
  deriving DecidableEq, Repr

/-- The reasons the model gives a step no meaning. -/
inductive Refusal where
  /-- An instruction without a meaning yet, rejected by name in `exec`. Safe. No arm uses it. -/
  | notModelled (mnemonic : String)
  /-- Raised by maskable-interrupt entry in IM 0 when the supplied byte is no RST: "refuse" is what the spec says
  (60_exceptions.md R609, D7). Safe. -/
  | im0NonRst
  /-- Raised by a repeating block iteration when BLOCK_REPEAT_XY is `pc_high`, which the spec says a model refuses
  (46_block.md R456, D14). Safe. -/
  | blockRepeatPcHigh
  deriving DecidableEq, Repr

/-- The machine right after construction: the reset values of 10_state.md R50 with intLine low and no breakpoint
(60_exceptions.md R623 "construct"), nothing listed in memory, no request issued. -/
def State.reset : State where
  a := 0xFF#8
  f := 0xFF#8
  b := 0xFF#8
  c := 0xFF#8
  d := 0xFF#8
  e := 0xFF#8
  h := 0xFF#8
  l := 0xFF#8
  aAlt := 0xFF#8
  fAlt := 0xFF#8
  bAlt := 0xFF#8
  cAlt := 0xFF#8
  dAlt := 0xFF#8
  eAlt := 0xFF#8
  hAlt := 0xFF#8
  lAlt := 0xFF#8
  ix := 0xFFFF#16
  iy := 0xFFFF#16
  sp := 0xFFFF#16
  pc := 0x0000#16
  i := 0x00#8
  r := 0x00#8
  memptr := 0xFFFF#16
  iff1 := false
  iff2 := false
  im := .im0
  pendingEI := false
  halted := false
  nmiPending := false
  intLine := false
  resetRequest := false
  q := false
  lastQ := false
  pfx := none
  breakpoints := []
  mem := []
  bus := []
  portAnswers := []
  ackAnswers := []
  hookAnswers := []
  draws := 0
  params := Config.Params.default
  lastLdAIR := false
  kind := .reset

end Sys2Proof.Machine
end

