-- ==== Sys2Proof/Machine/Ops.lean ====
section
/-! DEFINITION. The named operations over registers, memory, bus, stack and ports; taking an interrupt and returning from
one; reset. A meaning is a function from the state after the instruction's bytes have been fetched (00_scope.md R12) to a
`Result`. -/

namespace Sys2Proof.Machine

/-- What a meaning or a step answers. -/
abbrev Result := Host.Outcome State Fault Refusal

/-! ### Memory contents (20_memory.md R84) -/

/-- The byte of a memory at an address. -/
def Memory.read : Memory → Nat → Byte
  | [], _ => Config.unlistedByte
  | (k, v) :: m, a => if k = a then v else Memory.read m a

/-- A memory with the byte at an address replaced, in canonical form again. -/
def Memory.write : Memory → Nat → Byte → Memory
  | [], a, v => if v = Config.unlistedByte then [] else [(a, v)]
  | (k, w) :: m, a, v =>
    if a < k then (if v = Config.unlistedByte then (k, w) :: m else (a, v) :: (k, w) :: m)
    else if a = k then (if v = Config.unlistedByte then m else (a, v) :: m)
    else (k, w) :: Memory.write m a v

/-- Addresses strictly rising from `from_`, inside the 16-bit space, no cell equal to what an unlisted address reads as. -/
def Memory.wfFrom (from_ : Nat) : Memory → Bool
  | [] => true
  | (k, v) :: m => decide (from_ ≤ k) && decide (k < 65536) && (v != Config.unlistedByte) && Memory.wfFrom (k + 1) m

/-- The canonical form of a memory. -/
def Memory.wf (m : Memory) : Bool := Memory.wfFrom 0 m

/-! ### Breakpoint set (10_state.md R47) -/

/-- Strictly rising addresses from `from_`, inside the 16-bit space. -/
def risingFrom (from_ : Nat) : List Nat → Bool
  | [] => true
  | k :: ks => decide (from_ ≤ k) && decide (k < 65536) && risingFrom (k + 1) ks

/-- The breakpoint set with one address enabled. -/
def enableAddr (a : Nat) : List Nat → List Nat
  | [] => [a]
  | k :: ks => if a < k then a :: k :: ks else if a = k then k :: ks else k :: enableAddr a ks

/-- The breakpoint set with one address disabled. -/
def disableAddr (a : Nat) (ks : List Nat) : List Nat := ks.filter (· != a)

/-- The breakpoint at an address is enabled. -/
def State.breakpointAt (s : State) (a : Word) : Bool := s.breakpoints.contains a.toNat

/-! ### Registers (10_state.md R20 to R25) -/

/-- `reg8[r]` (00_scope.md R10). -/
def State.reg8 (s : State) : Reg8 → Byte
  | .b => s.b
  | .c => s.c
  | .d => s.d
  | .e => s.e
  | .h => s.h
  | .l => s.l
  | .a => s.a

/-- `reg8[r] <- v`. -/
def State.setReg8 (s : State) (r : Reg8) (v : Byte) : State :=
  match r with
  | .b => { s with b := v }
  | .c => { s with c := v }
  | .d => { s with d := v }
  | .e => { s with e := v }
  | .h => { s with h := v }
  | .l => { s with l := v }
  | .a => { s with a := v }

/-- The pair BC: a view of B and C (10_state.md R21). -/
def State.bc (s : State) : Word := join s.b s.c

/-- The pair DE. -/
def State.de (s : State) : Word := join s.d s.e

/-- The pair HL. -/
def State.hl (s : State) : Word := join s.h s.l

/-- The pair AF. -/
def State.af (s : State) : Word := join s.a s.f

/-- Writing BC writes both halves (10_state.md R21). -/
def State.setBc (s : State) (v : Word) : State := { s with b := hi v, c := lo v }

/-- Writing DE. -/
def State.setDe (s : State) (v : Word) : State := { s with d := hi v, e := lo v }

/-- Writing HL. -/
def State.setHl (s : State) (v : Word) : State := { s with h := hi v, l := lo v }

/-- Writing AF: F is loaded as data, Q is not touched (10_state.md R45). -/
def State.setAf (s : State) (v : Word) : State := { s with a := hi v, f := lo v }

/-- Writing AF' (10_state.md R22). -/
def State.setAfAlt (s : State) (v : Word) : State := { s with aAlt := hi v, fAlt := lo v }

/-- Writing BC', DE' and HL' (10_state.md R22). -/
def State.setGeneralAlt (s : State) (vbc vde vhl : Word) : State :=
  { s with bAlt := hi vbc, cAlt := lo vbc, dAlt := hi vde, eAlt := lo vde, hAlt := hi vhl, lAlt := lo vhl }

/-- Writing SP. -/
def State.setSp (s : State) (v : Word) : State := { s with sp := v }

/-- Writing PC. -/
def State.setPc (s : State) (v : Word) : State := { s with pc := v }

/-- Writing MEMPTR (10_state.md R43). -/
def State.setMemptr (s : State) (v : Word) : State := { s with memptr := v }

/-- `reg16[p]` for `rp` (30_encoding.md R104). -/
def State.rp (s : State) : Rp → Word
  | .bc => s.bc
  | .de => s.de
  | .hl => s.hl
  | .sp => s.sp

/-- `reg16[p] <- v` for `rp`. -/
def State.setRp (s : State) (p : Rp) (v : Word) : State :=
  match p with
  | .bc => s.setBc v
  | .de => s.setDe v
  | .hl => s.setHl v
  | .sp => s.setSp v

/-- `reg16[q]` for `rp2` (30_encoding.md R104). -/
def State.rp2 (s : State) : Rp2 → Word
  | .bc => s.bc
  | .de => s.de
  | .hl => s.hl
  | .af => s.af

/-- `reg16[q] <- v` for `rp2`. -/
def State.setRp2 (s : State) (p : Rp2) (v : Word) : State :=
  match p with
  | .bc => s.setBc v
  | .de => s.setDe v
  | .hl => s.setHl v
  | .af => s.setAf v

/-- IX or IY (10_state.md R23). -/
def State.idx (s : State) : Idx → Word
  | .ix => s.ix
  | .iy => s.iy

/-- Writing IX or IY. -/
def State.setIdx (s : State) (x : Idx) (v : Word) : State :=
  match x with
  | .ix => { s with ix := v }
  | .iy => { s with iy := v }

/-- IXh, IXl, IYh or IYl (10_state.md R23). -/
def State.idxHalf (s : State) (x : Idx) : Half → Byte
  | .high => hi (s.idx x)
  | .low => lo (s.idx x)

/-- Writing a half changes only that half (10_state.md R23). -/
def State.setIdxHalf (s : State) (x : Idx) (h : Half) (v : Byte) : State :=
  match h with
  | .high => s.setIdx x (join v (lo (s.idx x)))
  | .low => s.setIdx x (join (hi (s.idx x)) v)

/-- F written by an operation: Q records it (10_state.md R45). -/
def State.writeF (s : State) (v : Byte) : State := { s with f := v, q := true }

/-- The parameter `Q_ON_POP_EX_AF`: POP AF and EX AF,AF' set Q when it is true (00_scope.md R8, D13). -/
def State.markQOnPopExAF (s : State) : State := { s with q := s.q || s.params.qOnPopExAF }

/-- `R[6:0] <- R[6:0] + 1`, R[7] unchanged (10_state.md R35). -/
def State.incR (s : State) : State := { s with r := (s.r &&& 0x80#8) ||| ((s.r + 1#8) &&& 0x7F#8) }

/-- Writing I. -/
def State.setI (s : State) (v : Byte) : State := { s with i := v }

/-- Writing all 8 bits of R. -/
def State.setR (s : State) (v : Byte) : State := { s with r := v }

/-- Writing both interrupt flip-flops. -/
def State.setIffs (s : State) (v1 v2 : Bool) : State := { s with iff1 := v1, iff2 := v2 }

/-- Writing the interrupt mode. -/
def State.setIm (s : State) (m : IntMode) : State := { s with im := m }

/-- Writing pendingEI. -/
def State.setPendingEI (s : State) (v : Bool) : State := { s with pendingEI := v }

/-- Writing halted. -/
def State.setHalted (s : State) (v : Bool) : State := { s with halted := v }

/-- Writing nmiPending. -/
def State.setNmiPending (s : State) (v : Bool) : State := { s with nmiPending := v }

/-- Writing lastQ. -/
def State.setLastQ (s : State) (v : Bool) : State := { s with lastQ := v }

/-- Writing the prefix latch (10_state.md R46). -/
def State.setPfx (s : State) (x : Option Idx) : State := { s with pfx := x }

/-- Recording that the instruction was LD A,I or LD A,R (D15), or was not. -/
def State.setLastLdAIR (s : State) (v : Bool) : State := { s with lastLdAIR := v }

/-- Recording what the step returned. -/
def State.setKind (s : State) (k : StepKind) : State := { s with kind := k }

/-! ### Memory accesses (20_memory.md R71, R73) -/

/-- Record a request to the bus collaborator (20_memory.md R87). -/
def State.emit (s : State) (ev : BusEvent) : State := { s with bus := ev :: s.bus }

/-- The byte the store holds at an address. -/
def State.peek (s : State) (a : Word) : Byte := s.mem.read a.toNat

/-- The store with one byte replaced, no request recorded. -/
def State.poke (s : State) (a : Word) (v : Byte) : State := { s with mem := s.mem.write a.toNat v }

/-- `MemRead(a, 1)`: the rest of the meaning takes the byte. -/
def State.loading (s : State) (a : Word) (k : Byte → State → Result) : Result := k (s.peek a) (s.emit (.readByte a))

/-- `MemRead(a, 2)`: low byte at a, then high byte at a + 1 (20_memory.md R73). -/
def State.loading16 (s : State) (a : Word) (k : Word → State → Result) : Result :=
  s.loading a fun l s => s.loading (a + 1#16) fun h s => k (join h l) s

/-- `MemWrite(a, 1, v)`. -/
def State.store (s : State) (a : Word) (v : Byte) : State := (s.emit (.writeByte a v)).poke a v

/-- `MemWrite(a, 2, v)`: low byte at a, then high byte at a + 1 (20_memory.md R73). -/
def State.store16 (s : State) (a : Word) (v : Word) : State := (s.store a (lo v)).store (a + 1#16) (hi v)

/-- `Push16(v)`: high byte at SP − 1, then low byte at SP − 2 (20_memory.md R74). -/
def State.push16 (s : State) (v : Word) : State :=
  let s := s.setSp (s.sp - 1#16)
  let s := s.store s.sp (hi v)
  let s := s.setSp (s.sp - 1#16)
  s.store s.sp (lo v)

/-- `Pop16()`: low byte at SP, high byte at SP + 1, SP ends 2 higher (20_memory.md R74). -/
def State.popping (s : State) (k : Word → State → Result) : Result :=
  s.loading s.sp fun l s =>
    let s := s.setSp (s.sp + 1#16)
    s.loading s.sp fun h s => k (join h l) (s.setSp (s.sp + 1#16))

/-! ### Fetches (00_scope.md R11, 20_memory.md R72) -/

/-- `FetchOp()`: an M1 fetch at PC; PC + 1, R + 1. The byte is `peek PC` before it. -/
def State.fetchOp (s : State) : State := ((s.emit (.fetchOpcode s.pc)).setPc (s.pc + 1#16)).incR

/-- `FetchByte()`: an operand read at PC; PC + 1, R unchanged. -/
def State.fetchByte (s : State) : State := (s.emit (.readByte s.pc)).setPc (s.pc + 1#16)

/-- `n` operand reads. -/
def State.fetchBytes (s : State) : Nat → State
  | 0 => s
  | n + 1 => s.fetchByte.fetchBytes n

/-! ### Answers of the collaborator: the next byte it has ready, else a free value (log entries 2 to 5) -/

/-- What port-in(p) answers next (20_memory.md R85). -/
def State.portAnswer (s : State) (p : Word) : Byte := s.portAnswers.headD (Config.portByte s.draws p)

/-- The state after port-in(p): the request is recorded and the answer used up. -/
def State.afterPortIn (s : State) (p : Word) : State :=
  { s with bus := .portIn p :: s.bus, portAnswers := s.portAnswers.tail, draws := s.draws + 1 }

/-- `IoRead(p)` (00_scope.md R11). -/
def State.portReading (s : State) (p : Word) (k : Byte → State → Result) : Result := k (s.portAnswer p) (s.afterPortIn p)

/-- `IoWrite(p, v)` (00_scope.md R11): the output event is recorded (20_memory.md R85). -/
def State.portWrite (s : State) (p : Word) (v : Byte) : State := s.emit (.portOut p v)

/-- What int-ack() answers next (60_exceptions.md R608). -/
def State.ackAnswer (s : State) : Byte := s.ackAnswers.headD (Config.ackByte s.draws)

/-- The state after int-ack(). -/
def State.afterIntAck (s : State) : State :=
  { s with bus := .intAck :: s.bus, ackAnswers := s.ackAnswers.tail, draws := s.draws + 1 }

/-- What breakpoint-hook(a, op) answers next: op, or any byte (60_exceptions.md R620, 00_scope.md R8). -/
def State.hookAnswer (s : State) (a : Word) (op : Byte) : Byte :=
  match s.params.breakpointHook with
  | .identity => op
  | .oracle => s.hookAnswers.headD (Config.hookByte s.draws a op)

/-- The state after breakpoint-hook(a, op): the request is recorded, and an answer used up where the hook is an oracle. -/
def State.afterHook (s : State) (a : Word) (op : Byte) : State :=
  { s with
    bus := .breakpointHook a op :: s.bus
    hookAnswers := if s.params.breakpointHook = .oracle then s.hookAnswers.tail else s.hookAnswers
    draws := if s.params.breakpointHook = .oracle then s.draws + 1 else s.draws }

/-! ### Control transfer -/

/-- `PC <- t; MEMPTR <- t` (45_control.md R400, R409). -/
def State.jump (s : State) (t : Word) : State := (s.setPc t).setMemptr t

/-- `PC <- PC + sext_8(e); MEMPTR <- PC`, PC being the address after the instruction (45_control.md R402). -/
def State.jumpRel (s : State) (e : Byte) : State := s.jump (s.pc + sext8 e)

/-- `Push16(PC); PC <- t; MEMPTR <- t` (45_control.md R407, R411). -/
def State.call (s : State) (t : Word) : State := (s.push16 s.pc).jump t

/-- `PC <- Pop16(); MEMPTR <- PC` (45_control.md R409). -/
def State.returning (s : State) : Result := s.popping fun t s => .next (s.jump t)

/-! ### Interrupts and reset (60_exceptions.md, 70_reset_and_hazards.md) -/

/-- Leaving the Halted state: PC goes past the HALT (60_exceptions.md R607, R608, D9). -/
def State.leaveHalt (s : State) : State := if s.halted then (s.setHalted false).setPc (s.pc + 1#16) else s

/-- Taking an interrupt, the part every entry shares (60_exceptions.md R607 to R611): PC is pushed once, the handler's
address is found, PC and MEMPTR become it and lastQ is cleared (and the last instruction is no longer the step before,
log entry 9). -/
def State.takeInterrupt (s : State) (vector : State → (Word → State → Result) → Result) : Result :=
  vector (s.push16 s.pc) fun target s => .next (((s.jump target).setLastQ false).setLastLdAIR false)

/-- A handler at a fixed address. -/
def fixedVector (t : Word) (s : State) (k : Word → State → Result) : Result := k t s

/-- NMI entry (60_exceptions.md R607). -/
def State.serviceNmi (s : State) : Result :=
  let s := ((s.setNmiPending false).leaveHalt).incR
  (s.setIffs false s.iff2).takeInterrupt (fixedVector Config.nmiVector)

/-- The quirk of D15, under LDAIR_PV_QUIRK: an INT accepted right after LD A,I or LD A,R clears the PV that it wrote. -/
def State.clearPvOfLdAIR (s : State) : State :=
  if s.params.ldairPvQuirk && s.lastLdAIR then { s with f := s.f &&& 0xFB#8 } else s

/-- Maskable-interrupt entry (60_exceptions.md R608 to R611). -/
def State.serviceInt (s : State) : Result :=
  let s := ((s.clearPvOfLdAIR).leaveHalt).incR
  let s := s.setIffs false false
  match s.im with
  | .im0 =>
    let b := s.ackAnswer
    if b &&& 0xC7#8 = 0xC7#8 then s.afterIntAck.takeInterrupt (fixedVector (join 0x00#8 (b &&& 0x38#8)))
    else .refused .im0NonRst
  | .im1 => s.takeInterrupt (fixedVector Config.im1Vector)
  | .im2 => s.afterIntAck.takeInterrupt fun s' k => s'.loading16 (join s.i s.ackAnswer) k

/-- The return from an interrupt, of RETN and RETI: `IFF1 <- IFF2; PC <- Pop16(); MEMPTR <- PC` (48_cpu_control.md R501,
R502). -/
def State.returnFromInterrupt (s : State) : Result := (s.setIffs s.iff2 s.iff2).returning

/-- One halt step (60_exceptions.md R624). -/
def State.haltStep (s : State) : State := (((s.emit (.fetchOpcode s.pc)).incR).setLastQ false).setLastLdAIR false

/-- `ApplyReset()` (70_reset_and_hazards.md R701, R702): every piece of core state at its reset value; intLine, the
breakpoint set, memory and what belongs to the collaborator are kept. -/
def State.applyReset (s : State) : State :=
  { State.reset with
    intLine := s.intLine, breakpoints := s.breakpoints, mem := s.mem, bus := s.bus, portAnswers := s.portAnswers,
    ackAnswers := s.ackAnswers, hookAnswers := s.hookAnswers, draws := s.draws, params := s.params }

end Sys2Proof.Machine
end

