-- ==== Sys2Proof/Machine/Flags.lean ====
section
/-! DEFINITION. The flag byte: its bits (10_state.md R27), the flag tables (R32), the conditions (R30) and every flag
computation of files 42 to 48. A function `…F` gives the new F; the arguments are the operands and, where bits are kept or
carry is read, the old F. -/

namespace Sys2Proof.Machine

/-! ### Bits of F (10_state.md R27) -/

/-- `F.C`. -/
def flagC (f : Byte) : Bool := f.getLsbD 0
/-- `F.N`. -/
def flagN (f : Byte) : Bool := f.getLsbD 1
/-- `F.PV`. -/
def flagPV (f : Byte) : Bool := f.getLsbD 2
/-- `F.X`. -/
def flagX (f : Byte) : Bool := f.getLsbD 3
/-- `F.H`. -/
def flagH (f : Byte) : Bool := f.getLsbD 4
/-- `F.Y`. -/
def flagY (f : Byte) : Bool := f.getLsbD 5
/-- `F.Z`. -/
def flagZ (f : Byte) : Bool := f.getLsbD 6
/-- `F.S`. -/
def flagS (f : Byte) : Bool := f.getLsbD 7

/-- Bit C of F when a condition holds. -/
def bitC (c : Bool) : Byte := maskIf c 0x01#8
/-- Bit N. -/
def bitN (c : Bool) : Byte := maskIf c 0x02#8
/-- Bit PV. -/
def bitPV (c : Bool) : Byte := maskIf c 0x04#8
/-- Bit X. -/
def bitX (c : Bool) : Byte := maskIf c 0x08#8
/-- Bit H. -/
def bitH (c : Bool) : Byte := maskIf c 0x10#8
/-- Bit Y. -/
def bitY (c : Bool) : Byte := maskIf c 0x20#8
/-- Bit Z. -/
def bitZ (c : Bool) : Byte := maskIf c 0x40#8
/-- Bit S. -/
def bitS (c : Bool) : Byte := maskIf c 0x80#8

/-- `Cond(cc)` (10_state.md R30). -/
def condHolds (cc : Cond) (f : Byte) : Bool :=
  match cc with
  | .nz => !flagZ f
  | .z => flagZ f
  | .nc => !flagC f
  | .c => flagC f
  | .po => !flagPV f
  | .pe => flagPV f
  | .p => !flagS f
  | .m => flagS f

/-! ### Flag tables (10_state.md R32) -/

/-- `SZ53N_ADD[v]`. -/
def sz53nAdd (v : Byte) : Byte := (v &&& 0xA8#8) ||| bitZ (v == 0#8)

/-- `SZ53PN_ADD[v]`. -/
def sz53pnAdd (v : Byte) : Byte := sz53nAdd v ||| bitPV (parity v)

/-- `SZ53N_SUB[v]`. -/
def sz53nSub (v : Byte) : Byte := sz53nAdd v ||| 0x02#8

/-- `SZ53PN_SUB[v]`. -/
def sz53pnSub (v : Byte) : Byte := sz53pnAdd v ||| 0x02#8

/-! ### 8-bit arithmetic and logic (42_alu8.md) -/

/-- Signed overflow of an addition `a + v = res`. -/
def addOverflow (a v res : Byte) : Bool := a.msb == v.msb && res.msb != a.msb

/-- Signed overflow of a subtraction `a - v = res`. -/
def subOverflow (a v res : Byte) : Bool := a.msb != v.msb && res.msb != a.msb

/-- The carry-in as a byte. -/
def carryByte (f : Byte) : Byte := if flagC f then 1#8 else 0#8

/-- An accumulator operation: from A, the operand and F, the new A and the new F (42_alu8.md R280). -/
abbrev AluOp := Byte → Byte → Byte → Byte × Byte

/-- ADD (42_alu8.md R281). -/
def add8 : AluOp := fun a v _ =>
  let res := a + v
  (res, sz53nAdd res ||| bitH (15 < nibble a + nibble v) ||| bitPV (addOverflow a v res) ||| bitC (255 < int8 a + int8 v))

/-- ADC (42_alu8.md R282). -/
def adc8 : AluOp := fun a v f =>
  let c := bit (flagC f)
  let res := a + v + carryByte f
  (res, sz53nAdd res ||| bitH (15 < nibble a + nibble v + c) ||| bitPV (addOverflow a v res)
    ||| bitC (255 < int8 a + int8 v + c))

/-- SUB (42_alu8.md R283). -/
def sub8 : AluOp := fun a v _ =>
  let res := a - v
  (res, sz53nSub res ||| bitH (nibble a < nibble v) ||| bitPV (subOverflow a v res) ||| bitC (int8 a < int8 v))

/-- SBC (42_alu8.md R284). -/
def sbc8 : AluOp := fun a v f =>
  let c := bit (flagC f)
  let res := a - v - carryByte f
  (res, sz53nSub res ||| bitH (nibble a < nibble v + c) ||| bitPV (subOverflow a v res) ||| bitC (int8 a < int8 v + c))

/-- AND (42_alu8.md R285). -/
def and8 : AluOp := fun a v _ => (a &&& v, sz53pnAdd (a &&& v) ||| 0x10#8)

/-- XOR (42_alu8.md R286). -/
def xor8 : AluOp := fun a v _ => (a ^^^ v, sz53pnAdd (a ^^^ v))

/-- OR (42_alu8.md R287). -/
def or8 : AluOp := fun a v _ => (a ||| v, sz53pnAdd (a ||| v))

/-- CP: A stays; Y and X come from the operand (42_alu8.md R288). -/
def cp8 : AluOp := fun a v _ =>
  let res := a - v
  (a, (sz53nSub res &&& 0xD7#8) ||| (v &&& 0x28#8) ||| bitH (nibble a < nibble v) ||| bitPV (subOverflow a v res)
    ||| bitC (int8 a < int8 v))

/-- F of INC on the old value `v` (42_alu8.md R289). -/
def incF (v f : Byte) : Byte :=
  (f &&& 0x01#8) ||| sz53nAdd (v + 1#8) ||| bitH (nibble v == 15) ||| bitPV (v == 0x7F#8)

/-- F of DEC on the old value `v` (42_alu8.md R292). -/
def decF (v f : Byte) : Byte :=
  (f &&& 0x01#8) ||| sz53nSub (v - 1#8) ||| bitH (nibble v == 0) ||| bitPV (v == 0x80#8)

/-! ### 16-bit arithmetic (43_alu16_misc.md) -/

/-- The carry-in as a word. -/
def carryWord (f : Byte) : Word := if flagC f then 1#16 else 0#16

/-- F of ADD HL,ss and ADD IX,pp: S, Z, PV kept (43_alu16_misc.md R320). -/
def add16F (a v : Word) (f : Byte) : Byte :=
  (f &&& 0xC4#8) ||| (hi (a + v) &&& 0x28#8) ||| bitH (0xFFF < low12 a + low12 v) ||| bitC (0xFFFF < a.toNat + v.toNat)

/-- The result of ADC HL,ss (43_alu16_misc.md R322). -/
def adc16 (a v : Word) (f : Byte) : Word := a + v + carryWord f

/-- F of ADC HL,ss (43_alu16_misc.md R322). -/
def adc16F (a v : Word) (f : Byte) : Byte :=
  let c := bit (flagC f)
  let res := adc16 a v f
  (hi res &&& 0xA8#8) ||| bitZ (res == 0#16) ||| bitH (0xFFF < low12 a + low12 v + c)
    ||| bitPV (a.msb == v.msb && res.msb != a.msb) ||| bitC (0xFFFF < a.toNat + v.toNat + c)

/-- The result of SBC HL,ss (43_alu16_misc.md R323). -/
def sbc16 (a v : Word) (f : Byte) : Word := a - v - carryWord f

/-- F of SBC HL,ss (43_alu16_misc.md R323). -/
def sbc16F (a v : Word) (f : Byte) : Byte :=
  let c := bit (flagC f)
  let res := sbc16 a v f
  (hi res &&& 0xA8#8) ||| bitZ (res == 0#16) ||| 0x02#8 ||| bitH (low12 a < low12 v + c)
    ||| bitPV (a.msb != v.msb && res.msb != a.msb) ||| bitC (a.toNat < v.toNat + c)

/-! ### Accumulator and flag operations (43_alu16_misc.md) -/

/-- The low digit needs correction (43_alu16_misc.md R328). -/
def daaLow (a f : Byte) : Bool := flagH f || decide (9 < nibble a)

/-- The high digit needs correction, and the new C (43_alu16_misc.md R328). -/
def daaHigh (a f : Byte) : Bool := flagC f || decide (0x99 < int8 a)

/-- The correction of DAA (43_alu16_misc.md R328). -/
def daaCorrection (a f : Byte) : Byte := maskIf (daaLow a f) 0x06#8 ||| maskIf (daaHigh a f) 0x60#8

/-- The new A of DAA (43_alu16_misc.md R328). -/
def daaA (a f : Byte) : Byte := if flagN f then a - daaCorrection a f else a + daaCorrection a f

/-- The new H of DAA (43_alu16_misc.md R328). -/
def daaH (a f : Byte) : Bool := if flagN f then flagH f && decide (nibble a < 6) else decide (9 < nibble a)

/-- F of DAA (43_alu16_misc.md R328). -/
def daaF (a f : Byte) : Byte := sz53pnAdd (daaA a f) ||| (f &&& 0x02#8) ||| bitH (daaH a f) ||| bitC (daaHigh a f)

/-- F of CPL, `a` being the new A (43_alu16_misc.md R329). -/
def cplF (a f : Byte) : Byte := (f &&& 0xC5#8) ||| 0x12#8 ||| (a &&& 0x28#8)

/-- Y and X of SCF and CCF: from A when the previous instruction wrote F, else from F or A (43_alu16_misc.md R331). -/
def scfXY (a f : Byte) (lastQ : Bool) : Byte := (if lastQ then a else f ||| a) &&& 0x28#8

/-- F of SCF (43_alu16_misc.md R331). -/
def scfF (a f : Byte) (lastQ : Bool) : Byte := (f &&& 0xC4#8) ||| scfXY a f lastQ ||| 0x01#8

/-- F of CCF (43_alu16_misc.md R332). -/
def ccfF (a f : Byte) (lastQ : Bool) : Byte :=
  (f &&& 0xC4#8) ||| scfXY a f lastQ ||| bitH (flagC f) ||| bitC (!flagC f)

/-! ### Rotates, shifts, bits (44_rotate_bit.md) -/

/-- A rotate or shift: from the operand and F, the result and the carry out (44_rotate_bit.md R364). -/
abbrev RotOp := Byte → Byte → Byte × Bool

/-- RLC. -/
def rlc8 : RotOp := fun v _ => ((v <<< 1) ||| (v >>> 7), v.getLsbD 7)
/-- RRC. -/
def rrc8 : RotOp := fun v _ => ((v >>> 1) ||| (v <<< 7), v.getLsbD 0)
/-- RL. -/
def rl8 : RotOp := fun v f => ((v <<< 1) ||| carryByte f, v.getLsbD 7)
/-- RR. -/
def rr8 : RotOp := fun v f => ((v >>> 1) ||| (carryByte f <<< 7), v.getLsbD 0)
/-- SLA. -/
def sla8 : RotOp := fun v _ => (v <<< 1, v.getLsbD 7)
/-- SRA. -/
def sra8 : RotOp := fun v _ => ((v >>> 1) ||| (v &&& 0x80#8), v.getLsbD 0)
/-- SLL (undocumented). -/
def sll8 : RotOp := fun v _ => ((v <<< 1) ||| 1#8, v.getLsbD 7)
/-- SRL. -/
def srl8 : RotOp := fun v _ => (v >>> 1, v.getLsbD 0)

/-- F of a CB-page rotate or shift with result `res` and carry `c` (44_rotate_bit.md R364). -/
def rotF (res : Byte) (c : Bool) : Byte := sz53pnAdd res ||| bitC c

/-- F of RLCA, RRCA, RLA, RRA: S, Z, PV kept (44_rotate_bit.md R360). -/
def rotAF (res : Byte) (c : Bool) (f : Byte) : Byte := (f &&& 0xC4#8) ||| (res &&& 0x28#8) ||| bitC c

/-- F of BIT b on the value `v`, Y and X from `xy` (44_rotate_bit.md R374, R375, R376). -/
def bitF (b : BitVec 3) (v xy f : Byte) : Byte :=
  (f &&& 0x01#8) ||| 0x10#8 ||| (xy &&& 0x28#8) ||| maskIf (!v.getLsbD b.toNat) 0x44#8
    ||| bitS (v.getLsbD b.toNat && b == 7#3)

/-- F of RLD, RRD and of IN r,(C): S, Z, Y, X and parity from `v`, C kept (44_rotate_bit.md R381, 47_io.md R471). -/
def szpKeepCF (v f : Byte) : Byte := (f &&& 0x01#8) ||| sz53pnAdd v

/-- F of LD A,I and LD A,R: PV = IFF2 (48_cpu_control.md R499). -/
def ldAirF (v f : Byte) (iff2 : Bool) : Byte := (f &&& 0x01#8) ||| sz53nAdd v ||| bitPV iff2

/-! ### Block instructions (46_block.md) -/

/-- X and Y of the block instructions: bit 3 and bit 1 of a byte `n` (46_block.md R440, R444). -/
def blockXY (n : Byte) : Byte := (n &&& 0x08#8) ||| bitY (n.getLsbD 1)

/-- F of LDI and its like, `bc` being the decremented counter (46_block.md R440). -/
def blockLdF (a v f : Byte) (bc : Word) : Byte := (f &&& 0xC1#8) ||| blockXY (a + v) ||| bitPV (bc != 0#16)

/-- The borrow from bit 4 of the block compare (46_block.md R444). -/
def blockCpH (a v : Byte) : Bool := decide (nibble a < nibble v)

/-- F of CPI and its like, `bc` being the decremented counter (46_block.md R444). -/
def blockCpF (a v f : Byte) (bc : Word) : Byte :=
  let res := a - v
  let n := res - (if blockCpH a v then 1#8 else 0#8)
  (f &&& 0x01#8) ||| 0x02#8 ||| (res &&& 0x80#8) ||| bitZ (res == 0#8) ||| bitH (blockCpH a v) ||| blockXY n
    ||| bitPV (bc != 0#16)

/-- F of the block I/O instructions: the byte moved, the new B and the 8-bit addend that forms k with the byte
(46_block.md R448, R452). -/
def blockIoF (v b addend : Byte) : Byte :=
  let k := int8 v + int8 addend
  sz53nAdd b ||| bitN (v.getLsbD 7) ||| maskIf (255 < k) 0x11#8
    ||| bitPV (parity ((BitVec.ofNat 8 (k % 8)) ^^^ b))

end Sys2Proof.Machine
end

