-- ==== Sys2Proof/Machine/Operands.lean ====
section
/-! DEFINITION. The operand forms (42_alu8.md R280, 30_encoding.md R112, R113) and the operations over an operand that
several instructions share. -/

namespace Sys2Proof.Machine

/-- `EA(d) = IX + sext_8(d)` or IY, modulo 2^16 (30_encoding.md R112). -/
def State.ea (s : State) (x : Idx) (d : Byte) : Word := s.idx x + sext8 d

/-- Forming an indexed address writes MEMPTR (30_encoding.md R112). -/
def State.withEa (s : State) (x : Idx) (d : Byte) (k : Word → State → Result) : Result :=
  k (s.ea x d) (s.setMemptr (s.ea x d))

/-- A register of the LD forms with an index half: H and L stand for IXh and IXl (40_load8.md R208). -/
def State.regX (s : State) (x : Idx) : RegX → Byte
  | .b => s.b
  | .c => s.c
  | .d => s.d
  | .e => s.e
  | .xh => s.idxHalf x .high
  | .xl => s.idxHalf x .low
  | .a => s.a

/-- Writing such a register. -/
def State.setRegX (s : State) (x : Idx) (r : RegX) (v : Byte) : State :=
  match r with
  | .b => s.setReg8 .b v
  | .c => s.setReg8 .c v
  | .d => s.setReg8 .d v
  | .e => s.setReg8 .e v
  | .xh => s.setIdxHalf x .high v
  | .xl => s.setIdxHalf x .low v
  | .a => s.setReg8 .a v

/-- The pair operand of ADD IX,pp (30_encoding.md R104). -/
def State.rpX (s : State) (x : Idx) : RpX → Word
  | .bc => s.bc
  | .de => s.de
  | .ix => s.idx x
  | .sp => s.sp

/-- The pair that addresses memory in LD A,(BC) and its like. -/
def State.bcDe (s : State) : BcDe → Word
  | .bc => s.bc
  | .de => s.de

/-- The operand forms of an 8-bit operand (42_alu8.md R280). -/
inductive Src where
  | reg (r : Reg8)
  | imm (n : Byte)
  | mem
  | half (x : Idx) (h : Half)
  | indexed (x : Idx) (d : Byte)
  deriving DecidableEq, Repr

/-- How the source value is obtained (42_alu8.md R280). -/
def State.sourcing (s : State) (src : Src) (k : Byte → State → Result) : Result :=
  match src with
  | .reg r => k (s.reg8 r) s
  | .imm n => k n s
  | .mem => s.loading s.hl k
  | .half x h => k (s.idxHalf x h) s
  | .indexed x d => s.withEa x d fun a s => s.loading a k

/-- An accumulator operation on a source: A and F are written (42_alu8.md R280). -/
def State.accumulate (s : State) (op : AluOp) (src : Src) : Result :=
  s.sourcing src fun v s =>
    let res := op s.a v s.f
    .next ((s.setReg8 .a res.1).writeF res.2)

/-- A read-modify-write of a register with F: INC r, DEC r, rotates of r. -/
def State.modifyReg (s : State) (r : Reg8) (g : Byte → Byte → Byte × Byte) : Result :=
  let res := g (s.reg8 r) s.f
  .next ((s.setReg8 r res.1).writeF res.2)

/-- A read-modify-write of an index-register half with F. -/
def State.modifyHalf (s : State) (x : Idx) (h : Half) (g : Byte → Byte → Byte × Byte) : Result :=
  let res := g (s.idxHalf x h) s.f
  .next ((s.setIdxHalf x h res.1).writeF res.2)

/-- A read-modify-write of a memory byte with F (20_memory.md R77). -/
def State.modifyMem (s : State) (a : Word) (g : Byte → Byte → Byte × Byte) : Result :=
  s.loading a fun v s =>
    let res := g v s.f
    .next ((s.writeF res.2).store a res.1)

/-- A read-modify-write of a memory byte without F: SET and RES (44_rotate_bit.md R377, R378). -/
def State.changeMem (s : State) (a : Word) (g : Byte → Byte) : Result :=
  s.loading a fun v s => .next (s.store a (g v))

/-- The register copy of the DD CB forms (44_rotate_bit.md R373, R379). -/
def State.copyTo (s : State) (r : Option Reg8) (v : Byte) : State :=
  match r with
  | some r => s.setReg8 r v
  | none => s

/-- INC as a read-modify-write: result and F (42_alu8.md R289). -/
def inc8 : Byte → Byte → Byte × Byte := fun v f => (v + 1#8, incF v f)

/-- DEC as a read-modify-write (42_alu8.md R292). -/
def dec8 : Byte → Byte → Byte × Byte := fun v f => (v - 1#8, decF v f)

/-- A rotate or shift as a read-modify-write: `Rot(y, v)` (44_rotate_bit.md R364). -/
def rotate (op : RotOp) : Byte → Byte → Byte × Byte := fun v f => ((op v f).1, rotF (op v f).1 (op v f).2)

/-- A rotate or shift of (IX+d) with register copy (44_rotate_bit.md R373). -/
def State.rotateIndexed (s : State) (op : RotOp) (x : Idx) (d : Byte) (r : Option Reg8) : Result :=
  s.withEa x d fun a s => s.loading a fun v s =>
    let res := rotate op v s.f
    .next (((s.writeF res.2).store a res.1).copyTo r res.1)

/-- SET or RES of (IX+d) with register copy (44_rotate_bit.md R379, R380). -/
def State.changeIndexed (s : State) (g : Byte → Byte) (x : Idx) (d : Byte) (r : Option Reg8) : Result :=
  s.withEa x d fun a s => s.loading a fun v s => .next ((s.store a (g v)).copyTo r (g v))

/-- RLCA and its like: A rotates, S, Z and PV stay (44_rotate_bit.md R360). -/
def State.rotateA (s : State) (op : RotOp) : Result :=
  let res := op s.a s.f
  .next ((s.setReg8 .a res.1).writeF (rotAF res.1 res.2 s.f))

/-- `v | (1 << b)` (44_rotate_bit.md R377). -/
def setBit (b : BitVec 3) (v : Byte) : Byte := v ||| bitMask b

/-- `v & ~(1 << b)` (44_rotate_bit.md R378). -/
def resBit (b : BitVec 3) (v : Byte) : Byte := v &&& ~~~(bitMask b)

/-- ADD on a 16-bit register pair view: F and MEMPTR (43_alu16_misc.md R320). -/
def State.flagsAdd16 (s : State) (a v : Word) : State := (s.writeF (add16F a v s.f)).setMemptr (a + 1#16)

end Sys2Proof.Machine
end

