-- ==== Sys2Proof/Machine/Alu16.lean ====
section
/-! DEFINITION. The 16-bit arithmetic and the accumulator and flag operations (43_alu16_misc.md). -/

namespace Sys2Proof.Machine

/-- `ADD HL,ss` (43_alu16_misc.md R320). -/
def execAddHlSs (p : Rp) (s : State) : Result := .next ((s.flagsAdd16 s.hl (s.rp p)).setHl (s.hl + s.rp p))

/-- `ADD IX,pp` (43_alu16_misc.md R321). -/
def execAddIxPp (x : Idx) (p : RpX) (s : State) : Result :=
  .next ((s.flagsAdd16 (s.idx x) (s.rpX x p)).setIdx x (s.idx x + s.rpX x p))

/-- `ADC HL,ss` (43_alu16_misc.md R322). -/
def execAdcHlSs (p : Rp) (s : State) : Result :=
  .next (((s.writeF (adc16F s.hl (s.rp p) s.f)).setHl (adc16 s.hl (s.rp p) s.f)).setMemptr (s.hl + 1#16))

/-- `SBC HL,ss` (43_alu16_misc.md R323). -/
def execSbcHlSs (p : Rp) (s : State) : Result :=
  .next (((s.writeF (sbc16F s.hl (s.rp p) s.f)).setHl (sbc16 s.hl (s.rp p) s.f)).setMemptr (s.hl + 1#16))

/-- `INC ss` (43_alu16_misc.md R324). -/
def execIncSs (p : Rp) (s : State) : Result := .next (s.setRp p (s.rp p + 1#16))

/-- `DEC ss` (43_alu16_misc.md R326). -/
def execDecSs (p : Rp) (s : State) : Result := .next (s.setRp p (s.rp p - 1#16))

/-- `INC IX` (43_alu16_misc.md R325). -/
def execIncIx (x : Idx) (s : State) : Result := .next (s.setIdx x (s.idx x + 1#16))

/-- `DEC IX` (43_alu16_misc.md R327). -/
def execDecIx (x : Idx) (s : State) : Result := .next (s.setIdx x (s.idx x - 1#16))

/-- `DAA` (43_alu16_misc.md R328). -/
def execDaa (s : State) : Result := .next ((s.setReg8 .a (daaA s.a s.f)).writeF (daaF s.a s.f))

/-- `CPL` (43_alu16_misc.md R329). -/
def execCpl (s : State) : Result := .next ((s.setReg8 .a (~~~s.a)).writeF (cplF (~~~s.a) s.f))

/-- `NEG` (43_alu16_misc.md R330): SUB on operands 0 and A; all eight y values are this instruction. -/
def execNeg (_y : BitVec 3) (s : State) : Result :=
  .next ((s.setReg8 .a (sub8 0#8 s.a s.f).1).writeF (sub8 0#8 s.a s.f).2)

/-- `SCF` (43_alu16_misc.md R331). -/
def execScf (s : State) : Result := .next (s.writeF (scfF s.a s.f s.lastQ))

/-- `CCF` (43_alu16_misc.md R332). -/
def execCcf (s : State) : Result := .next (s.writeF (ccfF s.a s.f s.lastQ))

end Sys2Proof.Machine
end

