-- ==== Sys2Proof/Machine/Alu8.lean ====
section
/-! DEFINITION. The 8-bit arithmetic and logic instructions (42_alu8.md). -/

namespace Sys2Proof.Machine

/-- `ADD A,r` (42_alu8.md R281). -/
def execAddAR (r : Reg8) (s : State) : Result := s.accumulate add8 (.reg r)

/-- `ADD A,(HL)` (42_alu8.md R281). -/
def execAddAM (s : State) : Result := s.accumulate add8 .mem

/-- `ADD A,n` (42_alu8.md R281). -/
def execAddAN (n : Byte) (s : State) : Result := s.accumulate add8 (.imm n)

/-- `ADD A,IXh / IXl` (42_alu8.md R281). -/
def execAddAXh (x : Idx) (h : Half) (s : State) : Result := s.accumulate add8 (.half x h)

/-- `ADD A,(IX+d)` (42_alu8.md R281). -/
def execAddAXd (x : Idx) (d : Byte) (s : State) : Result := s.accumulate add8 (.indexed x d)

/-- `ADC A,r` (42_alu8.md R282). -/
def execAdcAR (r : Reg8) (s : State) : Result := s.accumulate adc8 (.reg r)

/-- `ADC A,(HL)` (42_alu8.md R282). -/
def execAdcAM (s : State) : Result := s.accumulate adc8 .mem

/-- `ADC A,n` (42_alu8.md R282). -/
def execAdcAN (n : Byte) (s : State) : Result := s.accumulate adc8 (.imm n)

/-- `ADC A,IXh / IXl` (42_alu8.md R282). -/
def execAdcAXh (x : Idx) (h : Half) (s : State) : Result := s.accumulate adc8 (.half x h)

/-- `ADC A,(IX+d)` (42_alu8.md R282). -/
def execAdcAXd (x : Idx) (d : Byte) (s : State) : Result := s.accumulate adc8 (.indexed x d)

/-- `SUB r` (42_alu8.md R283). -/
def execSubR (r : Reg8) (s : State) : Result := s.accumulate sub8 (.reg r)

/-- `SUB (HL)` (42_alu8.md R283). -/
def execSubM (s : State) : Result := s.accumulate sub8 .mem

/-- `SUB n` (42_alu8.md R283). -/
def execSubN (n : Byte) (s : State) : Result := s.accumulate sub8 (.imm n)

/-- `SUB IXh / IXl` (42_alu8.md R283). -/
def execSubXh (x : Idx) (h : Half) (s : State) : Result := s.accumulate sub8 (.half x h)

/-- `SUB (IX+d)` (42_alu8.md R283). -/
def execSubXd (x : Idx) (d : Byte) (s : State) : Result := s.accumulate sub8 (.indexed x d)

/-- `SBC A,r` (42_alu8.md R284). -/
def execSbcAR (r : Reg8) (s : State) : Result := s.accumulate sbc8 (.reg r)

/-- `SBC A,(HL)` (42_alu8.md R284). -/
def execSbcAM (s : State) : Result := s.accumulate sbc8 .mem

/-- `SBC A,n` (42_alu8.md R284). -/
def execSbcAN (n : Byte) (s : State) : Result := s.accumulate sbc8 (.imm n)

/-- `SBC A,IXh / IXl` (42_alu8.md R284). -/
def execSbcAXh (x : Idx) (h : Half) (s : State) : Result := s.accumulate sbc8 (.half x h)

/-- `SBC A,(IX+d)` (42_alu8.md R284). -/
def execSbcAXd (x : Idx) (d : Byte) (s : State) : Result := s.accumulate sbc8 (.indexed x d)

/-- `AND r` (42_alu8.md R285). -/
def execAndR (r : Reg8) (s : State) : Result := s.accumulate and8 (.reg r)

/-- `AND (HL)` (42_alu8.md R285). -/
def execAndM (s : State) : Result := s.accumulate and8 .mem

/-- `AND n` (42_alu8.md R285). -/
def execAndN (n : Byte) (s : State) : Result := s.accumulate and8 (.imm n)

/-- `AND IXh / IXl` (42_alu8.md R285). -/
def execAndXh (x : Idx) (h : Half) (s : State) : Result := s.accumulate and8 (.half x h)

/-- `AND (IX+d)` (42_alu8.md R285). -/
def execAndXd (x : Idx) (d : Byte) (s : State) : Result := s.accumulate and8 (.indexed x d)

/-- `XOR r` (42_alu8.md R286). -/
def execXorR (r : Reg8) (s : State) : Result := s.accumulate xor8 (.reg r)

/-- `XOR (HL)` (42_alu8.md R286). -/
def execXorM (s : State) : Result := s.accumulate xor8 .mem

/-- `XOR n` (42_alu8.md R286). -/
def execXorN (n : Byte) (s : State) : Result := s.accumulate xor8 (.imm n)

/-- `XOR IXh / IXl` (42_alu8.md R286). -/
def execXorXh (x : Idx) (h : Half) (s : State) : Result := s.accumulate xor8 (.half x h)

/-- `XOR (IX+d)` (42_alu8.md R286). -/
def execXorXd (x : Idx) (d : Byte) (s : State) : Result := s.accumulate xor8 (.indexed x d)

/-- `OR r` (42_alu8.md R287). -/
def execOrR (r : Reg8) (s : State) : Result := s.accumulate or8 (.reg r)

/-- `OR (HL)` (42_alu8.md R287). -/
def execOrM (s : State) : Result := s.accumulate or8 .mem

/-- `OR n` (42_alu8.md R287). -/
def execOrN (n : Byte) (s : State) : Result := s.accumulate or8 (.imm n)

/-- `OR IXh / IXl` (42_alu8.md R287). -/
def execOrXh (x : Idx) (h : Half) (s : State) : Result := s.accumulate or8 (.half x h)

/-- `OR (IX+d)` (42_alu8.md R287). -/
def execOrXd (x : Idx) (d : Byte) (s : State) : Result := s.accumulate or8 (.indexed x d)

/-- `CP r` (42_alu8.md R288). -/
def execCpR (r : Reg8) (s : State) : Result := s.accumulate cp8 (.reg r)

/-- `CP (HL)` (42_alu8.md R288). -/
def execCpM (s : State) : Result := s.accumulate cp8 .mem

/-- `CP n` (42_alu8.md R288). -/
def execCpN (n : Byte) (s : State) : Result := s.accumulate cp8 (.imm n)

/-- `CP IXh / IXl` (42_alu8.md R288). -/
def execCpXh (x : Idx) (h : Half) (s : State) : Result := s.accumulate cp8 (.half x h)

/-- `CP (IX+d)` (42_alu8.md R288). -/
def execCpXd (x : Idx) (d : Byte) (s : State) : Result := s.accumulate cp8 (.indexed x d)

/-- `INC r` (42_alu8.md R289). -/
def execIncR (r : Reg8) (s : State) : Result := s.modifyReg r inc8

/-- `INC IXh / INC IXl` (42_alu8.md R289). -/
def execIncXh (x : Idx) (h : Half) (s : State) : Result := s.modifyHalf x h inc8

/-- `INC (HL)` (42_alu8.md R290). -/
def execIncM (s : State) : Result := s.modifyMem s.hl inc8

/-- `INC (IX+d)` (42_alu8.md R291). -/
def execIncXd (x : Idx) (d : Byte) (s : State) : Result := s.withEa x d fun a s => s.modifyMem a inc8

/-- `DEC r` (42_alu8.md R292). -/
def execDecR (r : Reg8) (s : State) : Result := s.modifyReg r dec8

/-- `DEC IXh / DEC IXl` (42_alu8.md R292). -/
def execDecXh (x : Idx) (h : Half) (s : State) : Result := s.modifyHalf x h dec8

/-- `DEC (HL)` (42_alu8.md R293). -/
def execDecM (s : State) : Result := s.modifyMem s.hl dec8

/-- `DEC (IX+d)` (42_alu8.md R294). -/
def execDecXd (x : Idx) (d : Byte) (s : State) : Result := s.withEa x d fun a s => s.modifyMem a dec8

end Sys2Proof.Machine
end

