-- ==== Sys2Proof/Machine/BitOps.lean ====
section
/-! DEFINITION. Bit test, set and reset (44_rotate_bit.md). -/

namespace Sys2Proof.Machine

/-- `BIT b,r` (44_rotate_bit.md R374). -/
def execBitR (b : BitVec 3) (r : Reg8) (s : State) : Result := .next (s.writeF (bitF b (s.reg8 r) (s.reg8 r) s.f))

/-- `BIT b,(HL)` (44_rotate_bit.md R375): Y and X from the high byte of MEMPTR. -/
def execBitM (b : BitVec 3) (s : State) : Result :=
  s.loading s.hl fun v s => .next (s.writeF (bitF b v (hi s.memptr) s.f))

/-- `BIT b,(IX+d)` (44_rotate_bit.md R376): Y and X from the high byte of the address; all eight z values are this instruction. -/
def execBitXd (x : Idx) (b : BitVec 3) (d : Byte) (_z : BitVec 3) (s : State) : Result :=
  s.withEa x d fun a s => s.loading a fun v s => .next (s.writeF (bitF b v (hi a) s.f))

/-- `SET b,r` (44_rotate_bit.md R377). -/
def execSetR (b : BitVec 3) (r : Reg8) (s : State) : Result := .next (s.setReg8 r (setBit b (s.reg8 r)))

/-- `SET b,(HL)` (44_rotate_bit.md R377). -/
def execSetM (b : BitVec 3) (s : State) : Result := s.changeMem s.hl (setBit b)

/-- `SET b,(IX+d)[,r]` (44_rotate_bit.md R379). -/
def execSetXd (x : Idx) (b : BitVec 3) (d : Byte) (r : Option Reg8) (s : State) : Result :=
  s.changeIndexed (setBit b) x d r

/-- `RES b,r` (44_rotate_bit.md R378). -/
def execResR (b : BitVec 3) (r : Reg8) (s : State) : Result := .next (s.setReg8 r (resBit b (s.reg8 r)))

/-- `RES b,(HL)` (44_rotate_bit.md R378). -/
def execResM (b : BitVec 3) (s : State) : Result := s.changeMem s.hl (resBit b)

/-- `RES b,(IX+d)[,r]` (44_rotate_bit.md R380). -/
def execResXd (x : Idx) (b : BitVec 3) (d : Byte) (r : Option Reg8) (s : State) : Result :=
  s.changeIndexed (resBit b) x d r

end Sys2Proof.Machine
end

