-- ==== Sys2Proof/Machine/Block.lean ====
section
/-! DEFINITION. The block instructions (46_block.md): one iteration per step. -/

namespace Sys2Proof.Machine

/-- `p + δ`, δ being +1 for the increment forms and −1 for the decrement forms (46_block.md). -/
def advance (down : Bool) (p : Word) : Word := if down then p - 1#16 else p + 1#16

/-- One transfer of LDI or LDD (46_block.md R440, R441). -/
def State.blockLd (s : State) (down : Bool) (k : State → Result) : Result :=
  s.loading s.hl fun v s =>
    let bc := s.bc - 1#16
    k (((((s.store s.de v).setHl (advance down s.hl)).setDe (advance down s.de)).setBc bc).writeF (blockLdF s.a v s.f bc))

/-- One compare of CPI or CPD (46_block.md R444, R445). -/
def State.blockCp (s : State) (down : Bool) (k : State → Result) : Result :=
  s.loading s.hl fun v s =>
    let bc := s.bc - 1#16
    k ((((s.setHl (advance down s.hl)).setBc bc).writeF (blockCpF s.a v s.f bc)).setMemptr (advance down s.memptr))

/-- One input of INI or IND: the port is BC before B is decremented, k = byte + (C ± 1) (46_block.md R448, R449). -/
def State.blockIn (s : State) (down : Bool) (k : State → Result) : Result :=
  let port := s.bc
  (s.setMemptr (advance down port)).portReading port fun v s =>
    let b := s.b - 1#8
    let c := if down then s.c - 1#8 else s.c + 1#8
    k ((((s.store s.hl v).setReg8 .b b).setHl (advance down s.hl)).writeF (blockIoF v b c))

/-- One output of OUTI or OUTD: the port is BC after B is decremented, k = byte + the new L (46_block.md R452, R453). -/
def State.blockOut (s : State) (down : Bool) (k : State → Result) : Result :=
  s.loading s.hl fun v s =>
    let s := s.setReg8 .b (s.b - 1#8)
    let hl := advance down s.hl
    k ((((s.portWrite s.bc v).setMemptr (advance down s.bc)).setHl hl).writeF (blockIoF v s.b (lo hl)))

/-- `Repeat()`: PC goes back to the ED byte; LDIR, LDDR, CPIR and CPDR set MEMPTR. Under `pc_high` the spec says a model
refuses (46_block.md R456, D14). -/
def State.repeating (s : State) (setsMemptr : Bool) : Result :=
  match s.params.blockRepeatXY with
  | .asSingle => .next (if setsMemptr then (s.setPc (s.pc - 2#16)).setMemptr (s.pc - 1#16) else s.setPc (s.pc - 2#16))
  | .pcHigh => .refused .blockRepeatPcHigh

/-- Repeat when a condition on the state after the iteration holds. -/
def State.repeatIf (again : State → Bool) (setsMemptr : Bool) (s : State) : Result :=
  if again s then s.repeating setsMemptr else .next s

/-- LDIR and LDDR go on while BC is not 0 (46_block.md R442). -/
def againLd (s : State) : Bool := s.bc != 0#16

/-- CPIR and CPDR go on while BC is not 0 and there is no match (46_block.md R446). -/
def againCp (s : State) : Bool := s.bc != 0#16 && !flagZ s.f

/-- The repeating I/O forms go on while B is not 0 (46_block.md R450). -/
def againIo (s : State) : Bool := s.b != 0#8

/-- `LDI` (46_block.md R440). -/
def execLdi (s : State) : Result := s.blockLd false .next

/-- `LDD` (46_block.md R441). -/
def execLdd (s : State) : Result := s.blockLd true .next

/-- `LDIR` (46_block.md R442). -/
def execLdir (s : State) : Result := s.blockLd false (State.repeatIf againLd true)

/-- `LDDR` (46_block.md R443). -/
def execLddr (s : State) : Result := s.blockLd true (State.repeatIf againLd true)

/-- `CPI` (46_block.md R444). -/
def execCpi (s : State) : Result := s.blockCp false .next

/-- `CPD` (46_block.md R445). -/
def execCpd (s : State) : Result := s.blockCp true .next

/-- `CPIR` (46_block.md R446). -/
def execCpir (s : State) : Result := s.blockCp false (State.repeatIf againCp true)

/-- `CPDR` (46_block.md R447). -/
def execCpdr (s : State) : Result := s.blockCp true (State.repeatIf againCp true)

/-- `INI` (46_block.md R448). -/
def execIni (s : State) : Result := s.blockIn false .next

/-- `IND` (46_block.md R449). -/
def execInd (s : State) : Result := s.blockIn true .next

/-- `INIR` (46_block.md R450). -/
def execInir (s : State) : Result := s.blockIn false (State.repeatIf againIo false)

/-- `INDR` (46_block.md R451). -/
def execIndr (s : State) : Result := s.blockIn true (State.repeatIf againIo false)

/-- `OUTI` (46_block.md R452). -/
def execOuti (s : State) : Result := s.blockOut false .next

/-- `OUTD` (46_block.md R453). -/
def execOutd (s : State) : Result := s.blockOut true .next

/-- `OTIR` (46_block.md R454). -/
def execOtir (s : State) : Result := s.blockOut false (State.repeatIf againIo false)

/-- `OTDR` (46_block.md R455). -/
def execOtdr (s : State) : Result := s.blockOut true (State.repeatIf againIo false)

end Sys2Proof.Machine
end

