-- ==== Sys2Proof/Machine/Control.lean ====
section
/-! DEFINITION. Jumps, calls, returns and restarts (45_control.md). PC in a meaning is the address of the next instruction (00_scope.md R12). -/

namespace Sys2Proof.Machine

/-- `JP nn` (45_control.md R400). -/
def execJpNn (nn : Word) (s : State) : Result := .next (s.jump nn)

/-- `JP cc,nn` (45_control.md R401): MEMPTR is written whether or not the jump is taken. -/
def execJpCcNn (cc : Cond) (nn : Word) (s : State) : Result :=
  if condHolds cc s.f then .next (s.jump nn) else .next (s.setMemptr nn)

/-- `JR e` (45_control.md R402). -/
def execJr (e : Byte) (s : State) : Result := .next (s.jumpRel e)

/-- `JR cc,e` (45_control.md R403). -/
def execJrCc (cc : Cond) (e : Byte) (s : State) : Result := if condHolds cc s.f then .next (s.jumpRel e) else .next s

/-- `DJNZ e` (45_control.md R404). -/
def execDjnz (e : Byte) (s : State) : Result :=
  if s.b - 1#8 = 0#8 then .next (s.setReg8 .b (s.b - 1#8)) else .next ((s.setReg8 .b (s.b - 1#8)).jumpRel e)

/-- `JP (HL)` (45_control.md R405): MEMPTR unchanged. -/
def execJpHl (s : State) : Result := .next (s.setPc s.hl)

/-- `JP (IX)` (45_control.md R406). -/
def execJpIx (x : Idx) (s : State) : Result := .next (s.setPc (s.idx x))

/-- `CALL nn` (45_control.md R407). -/
def execCallNn (nn : Word) (s : State) : Result := .next (s.call nn)

/-- `CALL cc,nn` (45_control.md R408): MEMPTR is written even when not taken. -/
def execCallCcNn (cc : Cond) (nn : Word) (s : State) : Result :=
  if condHolds cc s.f then .next (s.call nn) else .next (s.setMemptr nn)

/-- `RET` (45_control.md R409). -/
def execRet (s : State) : Result := s.returning

/-- `RET cc` (45_control.md R410). -/
def execRetCc (cc : Cond) (s : State) : Result := if condHolds cc s.f then s.returning else .next s

/-- `RST p` (45_control.md R411): the target is 8·y. -/
def execRst (y : BitVec 3) (s : State) : Result := .next (s.call (join 0x00#8 (0#2 ++ y ++ 0#3)))

end Sys2Proof.Machine
end

