-- ==== Sys2Proof/Machine/CpuControl.lean ====
section
/-! DEFINITION. CPU control, interrupt control and special-register instructions (48_cpu_control.md), and the two prefix steps (30_encoding.md R117). -/

namespace Sys2Proof.Machine

/-- `NOP` (48_cpu_control.md R490). -/
def execNop (s : State) : Result := .next s

/-- `HALT` (48_cpu_control.md R491): PC points back at the HALT byte (D9). -/
def execHalt (s : State) : Result := .next ((s.setHalted true).setPc (s.pc - 1#16))

/-- `DI` (48_cpu_control.md R492). -/
def execDi (s : State) : Result := .next (s.setIffs false false)

/-- `EI` (48_cpu_control.md R493). -/
def execEi (s : State) : Result := .next ((s.setIffs true true).setPendingEI true)

/-- `IM 0` (48_cpu_control.md R494): ED 46, 4E, 66, 6E. -/
def execIm0 (_y5 : Bool) (_y3 : Bool) (s : State) : Result := .next (s.setIm .im0)

/-- `IM 1` (48_cpu_control.md R495): ED 56, 76. -/
def execIm1 (_y5 : Bool) (s : State) : Result := .next (s.setIm .im1)

/-- `IM 2` (48_cpu_control.md R496): ED 5E, 7E. -/
def execIm2 (_y5 : Bool) (s : State) : Result := .next (s.setIm .im2)

/-- `LD I,A` (48_cpu_control.md R497). -/
def execLdIA (s : State) : Result := .next (s.setI s.a)

/-- `LD R,A` (48_cpu_control.md R498): all 8 bits. -/
def execLdRA (s : State) : Result := .next (s.setR s.a)

/-- `LD A,I` (48_cpu_control.md R499): PV = IFF2. -/
def execLdAI (s : State) : Result := .next (((s.setReg8 .a s.i).writeF (ldAirF s.i s.f s.iff2)).setLastLdAIR true)

/-- `LD A,R` (48_cpu_control.md R500): PV = IFF2; R is read after the two M1 increments. -/
def execLdAR (s : State) : Result := .next (((s.setReg8 .a s.r).writeF (ldAirF s.r s.f s.iff2)).setLastLdAIR true)

/-- `RETN` (48_cpu_control.md R501): ED 45 and its duplicates. -/
def execRetn (_y : BitVec 3) (s : State) : Result := s.returnFromInterrupt

/-- `RETI` (48_cpu_control.md R502): the same effect as RETN. -/
def execReti (s : State) : Result := s.returnFromInterrupt

/-- `NOP (ED 77, ED 7F)` (48_cpu_control.md R503). -/
def execNopEd7 (_y3 : Bool) (s : State) : Result := .next s

/-- `NOP (ED 00-3F)` (48_cpu_control.md R503). -/
def execNopEd0 (_x : BitVec 6) (s : State) : Result := .next s

/-- `NOP (ED 80-9F, A4-A7, AC-AF, B4-B7, BC-BF)` (48_cpu_control.md R503). -/
def execNopEd2 (_y : BitVec 3) (_z : BitVec 3) (s : State) : Result := .next s

/-- `NOP (ED C0-FF)` (48_cpu_control.md R503). -/
def execNopEd3 (_x : BitVec 6) (s : State) : Result := .next s

/-- `DD/FD prefix` (30_encoding.md R117): the prefix is latched. -/
def execDdFdPrefix (x : Idx) (s : State) : Result := .next (s.setPfx (some x))

/-- `prefix again (DD or FD)` (30_encoding.md R117): the earlier prefix is discarded, the new one latched. -/
def execPrefixAgain (x : Idx) (s : State) : Result := .next (s.setPfx (some x))

end Sys2Proof.Machine
end

