-- ==== Sys2Proof/Machine/InOut.lean ====
section
/-! DEFINITION. Input and output (47_io.md). Every port request carries 16 bits (R476). -/

namespace Sys2Proof.Machine

/-- `IN A,(n)` (47_io.md R470): F unchanged. -/
def execInAN (n : Byte) (s : State) : Result :=
  let port := join s.a n
  s.portReading port fun v s => .next ((s.setReg8 .a v).setMemptr (port + 1#16))

/-- `IN r,(C)` (47_io.md R471). -/
def execInRC (r : Reg8) (s : State) : Result :=
  let port := s.bc
  s.portReading port fun v s => .next (((s.setReg8 r v).writeF (szpKeepCF v s.f)).setMemptr (port + 1#16))

/-- `IN (C) [IN F,(C)]` (47_io.md R472): no register receives the byte. -/
def execInC (s : State) : Result :=
  let port := s.bc
  s.portReading port fun v s => .next ((s.writeF (szpKeepCF v s.f)).setMemptr (port + 1#16))

/-- `OUT (n),A` (47_io.md R473): MEMPTR's low byte wraps within 8 bits. -/
def execOutNA (n : Byte) (s : State) : Result :=
  .next ((s.portWrite (join s.a n) s.a).setMemptr (join s.a (n + 1#8)))

/-- `OUT (C),r` (47_io.md R474). -/
def execOutCR (r : Reg8) (s : State) : Result := .next ((s.portWrite s.bc (s.reg8 r)).setMemptr (s.bc + 1#16))

/-- `OUT (C),0` (47_io.md R475): the NMOS part outputs 0x00 (D1). -/
def execOutC0 (s : State) : Result := .next ((s.portWrite s.bc 0x00#8).setMemptr (s.bc + 1#16))

end Sys2Proof.Machine
end

