-- ==== Sys2Proof/Machine/Load16.lean ====
section
/-! DEFINITION. The 16-bit loads, the stack and the exchange instructions (41_load16_stack_exchange.md). None writes F by an operation. -/

namespace Sys2Proof.Machine

/-- EX (SP) with a register pair: two reads, then the high byte and the low byte of the old value are written, and the value
read goes to the register and to MEMPTR (41_load16_stack_exchange.md R257). -/
def State.exchangeStackTop (s : State) (old : Word) (write : Word → State → State) : Result :=
  s.loading16 s.sp fun w s =>
    .next ((write w ((s.store (s.sp + 1#16) (hi old)).store s.sp (lo old))).setMemptr w)

/-- `LD dd,nn` (41_load16_stack_exchange.md R240). -/
def execLdDdNn (p : Rp) (nn : Word) (s : State) : Result := .next (s.setRp p nn)

/-- `LD IX,nn` (41_load16_stack_exchange.md R241). -/
def execLdIxNn (x : Idx) (nn : Word) (s : State) : Result := .next (s.setIdx x nn)

/-- `LD HL,(nn)` (41_load16_stack_exchange.md R242). -/
def execLdHlNn (nn : Word) (s : State) : Result :=
  s.loading16 nn fun w s => .next ((s.setHl w).setMemptr (nn + 1#16))

/-- `LD IX,(nn)` (41_load16_stack_exchange.md R243). -/
def execLdIxMem (x : Idx) (nn : Word) (s : State) : Result :=
  s.loading16 nn fun w s => .next ((s.setIdx x w).setMemptr (nn + 1#16))

/-- `LD (nn),HL` (41_load16_stack_exchange.md R244). -/
def execLdNnHl (nn : Word) (s : State) : Result := .next ((s.store16 nn s.hl).setMemptr (nn + 1#16))

/-- `LD (nn),IX` (41_load16_stack_exchange.md R245). -/
def execLdNnIx (x : Idx) (nn : Word) (s : State) : Result := .next ((s.store16 nn (s.idx x)).setMemptr (nn + 1#16))

/-- `LD dd,(nn)` (41_load16_stack_exchange.md R246). -/
def execLdDdMem (p : Rp) (nn : Word) (s : State) : Result :=
  s.loading16 nn fun w s => .next ((s.setRp p w).setMemptr (nn + 1#16))

/-- `LD (nn),dd` (41_load16_stack_exchange.md R247). -/
def execLdNnDd (p : Rp) (nn : Word) (s : State) : Result := .next ((s.store16 nn (s.rp p)).setMemptr (nn + 1#16))

/-- `LD SP,HL` (41_load16_stack_exchange.md R248). -/
def execLdSpHl (s : State) : Result := .next (s.setSp s.hl)

/-- `LD SP,IX` (41_load16_stack_exchange.md R249). -/
def execLdSpIx (x : Idx) (s : State) : Result := .next (s.setSp (s.idx x))

/-- `PUSH qq` (41_load16_stack_exchange.md R250). -/
def execPushQq (p : Rp2) (s : State) : Result := .next (s.push16 (s.rp2 p))

/-- `PUSH IX` (41_load16_stack_exchange.md R251). -/
def execPushIx (x : Idx) (s : State) : Result := .next (s.push16 (s.idx x))

/-- `POP qq` (41_load16_stack_exchange.md R252): POP AF loads F as data and sets Q only under Q_ON_POP_EX_AF (D13). -/
def execPopQq (p : Rp2) (s : State) : Result :=
  s.popping fun w s =>
    match p with
    | .bc | .de | .hl => .next (s.setRp2 p w)
    | .af => .next (s.setAf w).markQOnPopExAF

/-- `POP IX` (41_load16_stack_exchange.md R253). -/
def execPopIx (x : Idx) (s : State) : Result := s.popping fun w s => .next (s.setIdx x w)

/-- `EX DE,HL` (41_load16_stack_exchange.md R254). -/
def execExDeHl (s : State) : Result := .next ((s.setDe s.hl).setHl s.de)

/-- `EX AF,AF'` (41_load16_stack_exchange.md R255): F is loaded as data; Q is set only under Q_ON_POP_EX_AF (D13). -/
def execExAfAf (s : State) : Result := .next ((s.setAf (join s.aAlt s.fAlt)).setAfAlt s.af).markQOnPopExAF

/-- `EXX` (41_load16_stack_exchange.md R256). -/
def execExx (s : State) : Result :=
  .next ((((s.setBc (join s.bAlt s.cAlt)).setDe (join s.dAlt s.eAlt)).setHl (join s.hAlt s.lAlt)).setGeneralAlt s.bc s.de s.hl)

/-- `EX (SP),HL` (41_load16_stack_exchange.md R257). -/
def execExSpHl (s : State) : Result := s.exchangeStackTop s.hl fun w s => s.setHl w

/-- `EX (SP),IX` (41_load16_stack_exchange.md R258). -/
def execExSpIx (x : Idx) (s : State) : Result := s.exchangeStackTop (s.idx x) fun w s => s.setIdx x w

end Sys2Proof.Machine
end

