-- ==== Sys2Proof/Machine/Load8.lean ====
section
/-! DEFINITION. The 8-bit load instructions (40_load8.md). None writes F. -/

namespace Sys2Proof.Machine

/-- `LD r,r'` (40_load8.md R200). -/
def execLdRR (r : Reg8) (r' : Reg8) (s : State) : Result := .next (s.setReg8 r (s.reg8 r'))

/-- `LD r,n` (40_load8.md R201). -/
def execLdRN (r : Reg8) (n : Byte) (s : State) : Result := .next (s.setReg8 r n)

/-- `LD r,(HL)` (40_load8.md R202). -/
def execLdRM (r : Reg8) (s : State) : Result := s.loading s.hl fun v s => .next (s.setReg8 r v)

/-- `LD (HL),r` (40_load8.md R203). -/
def execLdMR (r : Reg8) (s : State) : Result := .next (s.store s.hl (s.reg8 r))

/-- `LD (HL),n` (40_load8.md R204). -/
def execLdMN (n : Byte) (s : State) : Result := .next (s.store s.hl n)

/-- `LD r,(IX+d)` (40_load8.md R205). -/
def execLdRXd (x : Idx) (r : Reg8) (d : Byte) (s : State) : Result :=
  s.withEa x d fun a s => s.loading a fun v s => .next (s.setReg8 r v)

/-- `LD (IX+d),r` (40_load8.md R206). -/
def execLdXdR (x : Idx) (r : Reg8) (d : Byte) (s : State) : Result :=
  s.withEa x d fun a s => .next (s.store a (s.reg8 r))

/-- `LD (IX+d),n` (40_load8.md R207). -/
def execLdXdN (x : Idx) (d : Byte) (n : Byte) (s : State) : Result := s.withEa x d fun a s => .next (s.store a n)

/-- `LD r,r' with IXh/IXl` (40_load8.md R208). -/
def execLdRRX (x : Idx) (r : RegX) (r' : RegX) (s : State) : Result := .next (s.setRegX x r (s.regX x r'))

/-- `LD IXh,n / LD IXl,n` (40_load8.md R209). -/
def execLdXhN (x : Idx) (h : Half) (n : Byte) (s : State) : Result := .next (s.setIdxHalf x h n)

/-- `LD A,(BC) / LD A,(DE)` (40_load8.md R210). -/
def execLdAPair (p : BcDe) (s : State) : Result :=
  s.loading (s.bcDe p) fun v s => .next ((s.setReg8 .a v).setMemptr (s.bcDe p + 1#16))

/-- `LD (BC),A / LD (DE),A` (40_load8.md R211): MEMPTR's high byte is A. -/
def execLdPairA (p : BcDe) (s : State) : Result :=
  .next ((s.store (s.bcDe p) s.a).setMemptr (join s.a (lo (s.bcDe p + 1#16))))

/-- `LD A,(nn)` (40_load8.md R212). -/
def execLdANn (nn : Word) (s : State) : Result :=
  s.loading nn fun v s => .next ((s.setReg8 .a v).setMemptr (nn + 1#16))

/-- `LD (nn),A` (40_load8.md R213): MEMPTR's high byte is A. -/
def execLdNnA (nn : Word) (s : State) : Result := .next ((s.store nn s.a).setMemptr (join s.a (lo (nn + 1#16))))

end Sys2Proof.Machine
end

