-- ==== Sys2Proof/Machine/Rotate.lean ====
section
/-! DEFINITION. The rotates and shifts and the digit rotates (44_rotate_bit.md). -/

namespace Sys2Proof.Machine

/-- `RLCA` (44_rotate_bit.md R360). -/
def execRlca (s : State) : Result := s.rotateA rlc8

/-- `RRCA` (44_rotate_bit.md R361). -/
def execRrca (s : State) : Result := s.rotateA rrc8

/-- `RLA` (44_rotate_bit.md R362). -/
def execRla (s : State) : Result := s.rotateA rl8

/-- `RRA` (44_rotate_bit.md R363). -/
def execRra (s : State) : Result := s.rotateA rr8

/-- `RLC r` (44_rotate_bit.md R365). -/
def execRlcR (r : Reg8) (s : State) : Result := s.modifyReg r (rotate rlc8)

/-- `RLC (HL)` (44_rotate_bit.md R365). -/
def execRlcM (s : State) : Result := s.modifyMem s.hl (rotate rlc8)

/-- `RLC (IX+d)[,r]` (44_rotate_bit.md R373). -/
def execRlcXd (x : Idx) (d : Byte) (r : Option Reg8) (s : State) : Result := s.rotateIndexed rlc8 x d r

/-- `RRC r` (44_rotate_bit.md R366). -/
def execRrcR (r : Reg8) (s : State) : Result := s.modifyReg r (rotate rrc8)

/-- `RRC (HL)` (44_rotate_bit.md R366). -/
def execRrcM (s : State) : Result := s.modifyMem s.hl (rotate rrc8)

/-- `RRC (IX+d)[,r]` (44_rotate_bit.md R373). -/
def execRrcXd (x : Idx) (d : Byte) (r : Option Reg8) (s : State) : Result := s.rotateIndexed rrc8 x d r

/-- `RL r` (44_rotate_bit.md R367). -/
def execRlR (r : Reg8) (s : State) : Result := s.modifyReg r (rotate rl8)

/-- `RL (HL)` (44_rotate_bit.md R367). -/
def execRlM (s : State) : Result := s.modifyMem s.hl (rotate rl8)

/-- `RL (IX+d)[,r]` (44_rotate_bit.md R373). -/
def execRlXd (x : Idx) (d : Byte) (r : Option Reg8) (s : State) : Result := s.rotateIndexed rl8 x d r

/-- `RR r` (44_rotate_bit.md R368). -/
def execRrR (r : Reg8) (s : State) : Result := s.modifyReg r (rotate rr8)

/-- `RR (HL)` (44_rotate_bit.md R368). -/
def execRrM (s : State) : Result := s.modifyMem s.hl (rotate rr8)

/-- `RR (IX+d)[,r]` (44_rotate_bit.md R373). -/
def execRrXd (x : Idx) (d : Byte) (r : Option Reg8) (s : State) : Result := s.rotateIndexed rr8 x d r

/-- `SLA r` (44_rotate_bit.md R369). -/
def execSlaR (r : Reg8) (s : State) : Result := s.modifyReg r (rotate sla8)

/-- `SLA (HL)` (44_rotate_bit.md R369). -/
def execSlaM (s : State) : Result := s.modifyMem s.hl (rotate sla8)

/-- `SLA (IX+d)[,r]` (44_rotate_bit.md R373). -/
def execSlaXd (x : Idx) (d : Byte) (r : Option Reg8) (s : State) : Result := s.rotateIndexed sla8 x d r

/-- `SRA r` (44_rotate_bit.md R370). -/
def execSraR (r : Reg8) (s : State) : Result := s.modifyReg r (rotate sra8)

/-- `SRA (HL)` (44_rotate_bit.md R370). -/
def execSraM (s : State) : Result := s.modifyMem s.hl (rotate sra8)

/-- `SRA (IX+d)[,r]` (44_rotate_bit.md R373). -/
def execSraXd (x : Idx) (d : Byte) (r : Option Reg8) (s : State) : Result := s.rotateIndexed sra8 x d r

/-- `SLL r` (44_rotate_bit.md R371). -/
def execSllR (r : Reg8) (s : State) : Result := s.modifyReg r (rotate sll8)

/-- `SLL (HL)` (44_rotate_bit.md R371). -/
def execSllM (s : State) : Result := s.modifyMem s.hl (rotate sll8)

/-- `SLL (IX+d)[,r]` (44_rotate_bit.md R373). -/
def execSllXd (x : Idx) (d : Byte) (r : Option Reg8) (s : State) : Result := s.rotateIndexed sll8 x d r

/-- `SRL r` (44_rotate_bit.md R372). -/
def execSrlR (r : Reg8) (s : State) : Result := s.modifyReg r (rotate srl8)

/-- `SRL (HL)` (44_rotate_bit.md R372). -/
def execSrlM (s : State) : Result := s.modifyMem s.hl (rotate srl8)

/-- `SRL (IX+d)[,r]` (44_rotate_bit.md R373). -/
def execSrlXd (x : Idx) (d : Byte) (r : Option Reg8) (s : State) : Result := s.rotateIndexed srl8 x d r

/-- `RLD` (44_rotate_bit.md R381). -/
def execRld (s : State) : Result :=
  s.loading s.hl fun t s =>
    let res := (s.a &&& 0xF0#8) ||| (t >>> 4)
    .next ((((s.store s.hl ((t <<< 4) ||| (s.a &&& 0x0F#8))).setReg8 .a res).writeF (szpKeepCF res s.f)).setMemptr (s.hl + 1#16))

/-- `RRD` (44_rotate_bit.md R382). -/
def execRrd (s : State) : Result :=
  s.loading s.hl fun t s =>
    let res := (s.a &&& 0xF0#8) ||| (t &&& 0x0F#8)
    .next ((((s.store s.hl (((s.a &&& 0x0F#8) <<< 4) ||| (t >>> 4))).setReg8 .a res).writeF (szpKeepCF res s.f)).setMemptr
      (s.hl + 1#16))

end Sys2Proof.Machine
end

