-- ==== Sys2Proof/Machine/Redirect.lean ====
section
/-! DEFINITION. The five rows of spec/opcode_table.json that name words of other rows: "CB prefix", "ED prefix",
"DD CB / FD CB" (30_encoding.md R118), "ED after DD/FD" and "prefix ignored" (48_cpu_control.md R504). The effect of each is
the effect of the instruction its bytes select (log entry 10): "execute the CB rule selected by op2", "executes exactly as
without the prefix". -/

namespace Sys2Proof.Machine

/-- The meanings of the instructions that are not naming rows. No page decoder gives a naming row (Laws/Decode.lean,
`resolve_namesRow`), so the last arm is never reached. -/
def execNamed (i : Instr) (s : State) : Result :=
  match i with
  | .nop => Sys2Proof.Machine.execNop s
  | .exAfAf => Sys2Proof.Machine.execExAfAf s
  | .djnz e => Sys2Proof.Machine.execDjnz e s
  | .jr e => Sys2Proof.Machine.execJr e s
  | .jrCc cc e => Sys2Proof.Machine.execJrCc cc e s
  | .ldDdNn p nn => Sys2Proof.Machine.execLdDdNn p nn s
  | .addHlSs p => Sys2Proof.Machine.execAddHlSs p s
  | .ldPairA p => Sys2Proof.Machine.execLdPairA p s
  | .ldAPair p => Sys2Proof.Machine.execLdAPair p s
  | .ldNnHl nn => Sys2Proof.Machine.execLdNnHl nn s
  | .ldHlNn nn => Sys2Proof.Machine.execLdHlNn nn s
  | .ldNnA nn => Sys2Proof.Machine.execLdNnA nn s
  | .ldANn nn => Sys2Proof.Machine.execLdANn nn s
  | .incSs p => Sys2Proof.Machine.execIncSs p s
  | .decSs p => Sys2Proof.Machine.execDecSs p s
  | .incR r => Sys2Proof.Machine.execIncR r s
  | .incM => Sys2Proof.Machine.execIncM s
  | .decR r => Sys2Proof.Machine.execDecR r s
  | .decM => Sys2Proof.Machine.execDecM s
  | .ldRN r n => Sys2Proof.Machine.execLdRN r n s
  | .ldMN n => Sys2Proof.Machine.execLdMN n s
  | .rlca => Sys2Proof.Machine.execRlca s
  | .rrca => Sys2Proof.Machine.execRrca s
  | .rla => Sys2Proof.Machine.execRla s
  | .rra => Sys2Proof.Machine.execRra s
  | .daa => Sys2Proof.Machine.execDaa s
  | .cpl => Sys2Proof.Machine.execCpl s
  | .scf => Sys2Proof.Machine.execScf s
  | .ccf => Sys2Proof.Machine.execCcf s
  | .ldRR r r' => Sys2Proof.Machine.execLdRR r r' s
  | .ldRM r => Sys2Proof.Machine.execLdRM r s
  | .ldMR r => Sys2Proof.Machine.execLdMR r s
  | .halt => Sys2Proof.Machine.execHalt s
  | .addAR r => Sys2Proof.Machine.execAddAR r s
  | .addAM => Sys2Proof.Machine.execAddAM s
  | .addAN n => Sys2Proof.Machine.execAddAN n s
  | .adcAR r => Sys2Proof.Machine.execAdcAR r s
  | .adcAM => Sys2Proof.Machine.execAdcAM s
  | .adcAN n => Sys2Proof.Machine.execAdcAN n s
  | .subR r => Sys2Proof.Machine.execSubR r s
  | .subM => Sys2Proof.Machine.execSubM s
  | .subN n => Sys2Proof.Machine.execSubN n s
  | .sbcAR r => Sys2Proof.Machine.execSbcAR r s
  | .sbcAM => Sys2Proof.Machine.execSbcAM s
  | .sbcAN n => Sys2Proof.Machine.execSbcAN n s
  | .andR r => Sys2Proof.Machine.execAndR r s
  | .andM => Sys2Proof.Machine.execAndM s
  | .andN n => Sys2Proof.Machine.execAndN n s
  | .xorR r => Sys2Proof.Machine.execXorR r s
  | .xorM => Sys2Proof.Machine.execXorM s
  | .xorN n => Sys2Proof.Machine.execXorN n s
  | .orR r => Sys2Proof.Machine.execOrR r s
  | .orM => Sys2Proof.Machine.execOrM s
  | .orN n => Sys2Proof.Machine.execOrN n s
  | .cpR r => Sys2Proof.Machine.execCpR r s
  | .cpM => Sys2Proof.Machine.execCpM s
  | .cpN n => Sys2Proof.Machine.execCpN n s
  | .retCc cc => Sys2Proof.Machine.execRetCc cc s
  | .popQq p => Sys2Proof.Machine.execPopQq p s
  | .ret => Sys2Proof.Machine.execRet s
  | .exx => Sys2Proof.Machine.execExx s
  | .jpHl => Sys2Proof.Machine.execJpHl s
  | .ldSpHl => Sys2Proof.Machine.execLdSpHl s
  | .jpCcNn cc nn => Sys2Proof.Machine.execJpCcNn cc nn s
  | .jpNn nn => Sys2Proof.Machine.execJpNn nn s
  | .outNA n => Sys2Proof.Machine.execOutNA n s
  | .inAN n => Sys2Proof.Machine.execInAN n s
  | .exSpHl => Sys2Proof.Machine.execExSpHl s
  | .exDeHl => Sys2Proof.Machine.execExDeHl s
  | .di => Sys2Proof.Machine.execDi s
  | .ei => Sys2Proof.Machine.execEi s
  | .callCcNn cc nn => Sys2Proof.Machine.execCallCcNn cc nn s
  | .pushQq p => Sys2Proof.Machine.execPushQq p s
  | .callNn nn => Sys2Proof.Machine.execCallNn nn s
  | .ddFdPrefix x => Sys2Proof.Machine.execDdFdPrefix x s
  | .rst y => Sys2Proof.Machine.execRst y s
  | .rlcR r => Sys2Proof.Machine.execRlcR r s
  | .rlcM => Sys2Proof.Machine.execRlcM s
  | .rrcR r => Sys2Proof.Machine.execRrcR r s
  | .rrcM => Sys2Proof.Machine.execRrcM s
  | .rlR r => Sys2Proof.Machine.execRlR r s
  | .rlM => Sys2Proof.Machine.execRlM s
  | .rrR r => Sys2Proof.Machine.execRrR r s
  | .rrM => Sys2Proof.Machine.execRrM s
  | .slaR r => Sys2Proof.Machine.execSlaR r s
  | .slaM => Sys2Proof.Machine.execSlaM s
  | .sraR r => Sys2Proof.Machine.execSraR r s
  | .sraM => Sys2Proof.Machine.execSraM s
  | .sllR r => Sys2Proof.Machine.execSllR r s
  | .sllM => Sys2Proof.Machine.execSllM s
  | .srlR r => Sys2Proof.Machine.execSrlR r s
  | .srlM => Sys2Proof.Machine.execSrlM s
  | .bitR b r => Sys2Proof.Machine.execBitR b r s
  | .bitM b => Sys2Proof.Machine.execBitM b s
  | .resR b r => Sys2Proof.Machine.execResR b r s
  | .resM b => Sys2Proof.Machine.execResM b s
  | .setR b r => Sys2Proof.Machine.execSetR b r s
  | .setM b => Sys2Proof.Machine.execSetM b s
  | .inRC r => Sys2Proof.Machine.execInRC r s
  | .inC => Sys2Proof.Machine.execInC s
  | .outCR r => Sys2Proof.Machine.execOutCR r s
  | .outC0 => Sys2Proof.Machine.execOutC0 s
  | .sbcHlSs p => Sys2Proof.Machine.execSbcHlSs p s
  | .adcHlSs p => Sys2Proof.Machine.execAdcHlSs p s
  | .ldNnDd p nn => Sys2Proof.Machine.execLdNnDd p nn s
  | .ldDdMem p nn => Sys2Proof.Machine.execLdDdMem p nn s
  | .neg y => Sys2Proof.Machine.execNeg y s
  | .reti => Sys2Proof.Machine.execReti s
  | .retn y => Sys2Proof.Machine.execRetn y s
  | .im0 y5 y3 => Sys2Proof.Machine.execIm0 y5 y3 s
  | .im1 y5 => Sys2Proof.Machine.execIm1 y5 s
  | .im2 y5 => Sys2Proof.Machine.execIm2 y5 s
  | .ldIA => Sys2Proof.Machine.execLdIA s
  | .ldRA => Sys2Proof.Machine.execLdRA s
  | .ldAI => Sys2Proof.Machine.execLdAI s
  | .ldAR => Sys2Proof.Machine.execLdAR s
  | .rrd => Sys2Proof.Machine.execRrd s
  | .rld => Sys2Proof.Machine.execRld s
  | .nopEd7 y3 => Sys2Proof.Machine.execNopEd7 y3 s
  | .ldi => Sys2Proof.Machine.execLdi s
  | .cpi => Sys2Proof.Machine.execCpi s
  | .ini => Sys2Proof.Machine.execIni s
  | .outi => Sys2Proof.Machine.execOuti s
  | .ldd => Sys2Proof.Machine.execLdd s
  | .cpd => Sys2Proof.Machine.execCpd s
  | .ind => Sys2Proof.Machine.execInd s
  | .outd => Sys2Proof.Machine.execOutd s
  | .ldir => Sys2Proof.Machine.execLdir s
  | .cpir => Sys2Proof.Machine.execCpir s
  | .inir => Sys2Proof.Machine.execInir s
  | .otir => Sys2Proof.Machine.execOtir s
  | .lddr => Sys2Proof.Machine.execLddr s
  | .cpdr => Sys2Proof.Machine.execCpdr s
  | .indr => Sys2Proof.Machine.execIndr s
  | .otdr => Sys2Proof.Machine.execOtdr s
  | .nopEd0 x => Sys2Proof.Machine.execNopEd0 x s
  | .nopEd2 y z => Sys2Proof.Machine.execNopEd2 y z s
  | .nopEd3 x => Sys2Proof.Machine.execNopEd3 x s
  | .addIxPp x p => Sys2Proof.Machine.execAddIxPp x p s
  | .ldIxNn x nn => Sys2Proof.Machine.execLdIxNn x nn s
  | .ldNnIx x nn => Sys2Proof.Machine.execLdNnIx x nn s
  | .incIx x => Sys2Proof.Machine.execIncIx x s
  | .incXh x h => Sys2Proof.Machine.execIncXh x h s
  | .decXh x h => Sys2Proof.Machine.execDecXh x h s
  | .ldXhN x h n => Sys2Proof.Machine.execLdXhN x h n s
  | .ldIxMem x nn => Sys2Proof.Machine.execLdIxMem x nn s
  | .decIx x => Sys2Proof.Machine.execDecIx x s
  | .incXd x d => Sys2Proof.Machine.execIncXd x d s
  | .decXd x d => Sys2Proof.Machine.execDecXd x d s
  | .ldXdN x d n => Sys2Proof.Machine.execLdXdN x d n s
  | .ldRXd x r d => Sys2Proof.Machine.execLdRXd x r d s
  | .ldXdR x r d => Sys2Proof.Machine.execLdXdR x r d s
  | .ldRRX x r r' => Sys2Proof.Machine.execLdRRX x r r' s
  | .addAXh x h => Sys2Proof.Machine.execAddAXh x h s
  | .addAXd x d => Sys2Proof.Machine.execAddAXd x d s
  | .adcAXh x h => Sys2Proof.Machine.execAdcAXh x h s
  | .adcAXd x d => Sys2Proof.Machine.execAdcAXd x d s
  | .subXh x h => Sys2Proof.Machine.execSubXh x h s
  | .subXd x d => Sys2Proof.Machine.execSubXd x d s
  | .sbcAXh x h => Sys2Proof.Machine.execSbcAXh x h s
  | .sbcAXd x d => Sys2Proof.Machine.execSbcAXd x d s
  | .andXh x h => Sys2Proof.Machine.execAndXh x h s
  | .andXd x d => Sys2Proof.Machine.execAndXd x d s
  | .xorXh x h => Sys2Proof.Machine.execXorXh x h s
  | .xorXd x d => Sys2Proof.Machine.execXorXd x d s
  | .orXh x h => Sys2Proof.Machine.execOrXh x h s
  | .orXd x d => Sys2Proof.Machine.execOrXd x d s
  | .cpXh x h => Sys2Proof.Machine.execCpXh x h s
  | .cpXd x d => Sys2Proof.Machine.execCpXd x d s
  | .popIx x => Sys2Proof.Machine.execPopIx x s
  | .exSpIx x => Sys2Proof.Machine.execExSpIx x s
  | .pushIx x => Sys2Proof.Machine.execPushIx x s
  | .jpIx x => Sys2Proof.Machine.execJpIx x s
  | .ldSpIx x => Sys2Proof.Machine.execLdSpIx x s
  | .prefixAgain x => Sys2Proof.Machine.execPrefixAgain x s
  | .rlcXd x d r => Sys2Proof.Machine.execRlcXd x d r s
  | .rrcXd x d r => Sys2Proof.Machine.execRrcXd x d r s
  | .rlXd x d r => Sys2Proof.Machine.execRlXd x d r s
  | .rrXd x d r => Sys2Proof.Machine.execRrXd x d r s
  | .slaXd x d r => Sys2Proof.Machine.execSlaXd x d r s
  | .sraXd x d r => Sys2Proof.Machine.execSraXd x d r s
  | .sllXd x d r => Sys2Proof.Machine.execSllXd x d r s
  | .srlXd x d r => Sys2Proof.Machine.execSrlXd x d r s
  | .bitXd x b d z => Sys2Proof.Machine.execBitXd x b d z s
  | .resXd x b d r => Sys2Proof.Machine.execResXd x b d r s
  | .setXd x b d r => Sys2Proof.Machine.execSetXd x b d r s
  | .cbPrefix _ | .edPrefix _ _ _ | .ddCb _ _ _ | .edAfterIndex _ _ _ _ | .prefixIgnored _ _ _ _ => .next s

/-- `CB prefix` (30_encoding.md R118). -/
def execCbPrefix (op : Byte) (s : State) : Result :=
  execNamed (Instr.cbPrefix op).resolve s

/-- `ED prefix` (30_encoding.md R118). -/
def execEdPrefix (op : Byte) (b1 : Byte) (b2 : Byte) (s : State) : Result :=
  execNamed (Instr.edPrefix op b1 b2).resolve s

/-- `DD CB / FD CB` (30_encoding.md R118). -/
def execDdCb (x : Idx) (d : Byte) (op : Byte) (s : State) : Result :=
  execNamed (Instr.ddCb x d op).resolve s

/-- `ED after DD/FD` (48_cpu_control.md R504). -/
def execEdAfterIndex (x : Idx) (op : Byte) (b1 : Byte) (b2 : Byte) (s : State) : Result :=
  execNamed (Instr.edAfterIndex x op b1 b2).resolve s

/-- `prefix ignored: base-page instruction` (48_cpu_control.md R504). -/
def execPrefixIgnored (x : Idx) (op : Byte) (b1 : Byte) (b2 : Byte) (s : State) : Result :=
  execNamed (Instr.prefixIgnored x op b1 b2).resolve s

end Sys2Proof.Machine
end

