-- ==== Sys2Proof/Machine/Fetch.lean ====
section
/-! DEFINITION. Fetching one step's instruction and the step function (30_encoding.md R118, 60_exceptions.md R601). All
the bytes of an instruction are fetched before its effects (20_memory.md R83, log entry 11). -/

namespace Sys2Proof.Machine

/-- A breakpoint hook is consulted: at the first byte of a logical instruction only (60_exceptions.md R620). -/
def State.hookConsulted (s : State) : Bool := s.pfx.isNone && s.breakpointAt s.pc

/-- The byte decoded as the opcode: what is in memory at PC, or what the hook answers in its place. -/
def State.openingByte (s : State) : Byte :=
  if s.hookConsulted then s.hookAnswer s.pc (s.peek s.pc) else s.peek s.pc

/-- The state after the opcode fetch, and the hook if it is consulted. -/
def State.afterOpening (s : State) : State :=
  if s.hookConsulted then s.fetchOp.afterHook s.pc (s.peek s.pc) else s.fetchOp

/-- A logical instruction starts: `Q <- 0; pendingEI <- 0` (60_exceptions.md R601 step 4). -/
def State.clearForInstruction (s : State) : State := { s with q := false, pendingEI := false, lastLdAIR := false }

/-- The same, when this is the first byte of a logical instruction. -/
def State.startInstruction (s : State) : State := if s.pfx.isNone then s.clearForInstruction else s

/-- `n` further M1 fetches. -/
def State.fetchOps (s : State) : Nat → State
  | 0 => s
  | n + 1 => s.fetchOp.fetchOps n

/-- The instruction this step executes. -/
def State.decoded (s : State) : Instr :=
  decodeAt s.pfx s.openingByte (s.peek (s.pc + 1#16)) (s.peek (s.pc + 2#16)) (s.peek (s.pc + 3#16))

/-- The state a meaning starts from: the bytes of the instruction are fetched, PC is after them and the prefix latch is
clear (30_encoding.md R118, 10_state.md R46). -/
def State.fetched (s : State) (i : Instr) : State :=
  ((s.afterOpening.startInstruction.fetchOps (i.m1Fetches - 1)).fetchBytes i.operandReads).setPfx none

/-- The instruction is a prefix step: it ends no logical instruction (30_encoding.md R117). -/
def isPrefixStep : Instr → Bool
  | .ddFdPrefix _ | .prefixAgain _ => true
  | .nop | .exAfAf | .djnz _ | .jr _ | .jrCc _ _ | .ldDdNn _ _ | .addHlSs _ | .ldPairA _ | .ldAPair _ | .ldNnHl _
  | .ldHlNn _ | .ldNnA _ | .ldANn _ | .incSs _ | .decSs _ | .incR _ | .incM | .decR _ | .decM | .ldRN _ _ | .ldMN _
  | .rlca | .rrca | .rla | .rra | .daa | .cpl | .scf | .ccf | .ldRR _ _ | .ldRM _ | .ldMR _ | .halt | .addAR _
  | .addAM | .addAN _ | .adcAR _ | .adcAM | .adcAN _ | .subR _ | .subM | .subN _ | .sbcAR _ | .sbcAM | .sbcAN _
  | .andR _ | .andM | .andN _ | .xorR _ | .xorM | .xorN _ | .orR _ | .orM | .orN _ | .cpR _ | .cpM | .cpN _
  | .retCc _ | .popQq _ | .ret | .exx | .jpHl | .ldSpHl | .jpCcNn _ _ | .jpNn _ | .cbPrefix _ | .outNA _ | .inAN _
  | .exSpHl | .exDeHl | .di | .ei | .callCcNn _ _ | .pushQq _ | .callNn _ | .edPrefix _ _ _ | .rst _ | .rlcR _
  | .rlcM | .rrcR _ | .rrcM | .rlR _ | .rlM | .rrR _ | .rrM | .slaR _ | .slaM | .sraR _ | .sraM | .sllR _ | .sllM
  | .srlR _ | .srlM | .bitR _ _ | .bitM _ | .resR _ _ | .resM _ | .setR _ _ | .setM _ | .inRC _ | .inC | .outCR _
  | .outC0 | .sbcHlSs _ | .adcHlSs _ | .ldNnDd _ _ | .ldDdMem _ _ | .neg _ | .reti | .retn _ | .im0 _ _ | .im1 _
  | .im2 _ | .ldIA | .ldRA | .ldAI | .ldAR | .rrd | .rld | .nopEd7 _ | .ldi | .cpi | .ini | .outi | .ldd | .cpd
  | .ind | .outd | .ldir | .cpir | .inir | .otir | .lddr | .cpdr | .indr | .otdr | .nopEd0 _ | .nopEd2 _ _
  | .nopEd3 _ | .addIxPp _ _ | .ldIxNn _ _ | .ldNnIx _ _ | .incIx _ | .incXh _ _ | .decXh _ _ | .ldXhN _ _ _
  | .ldIxMem _ _ | .decIx _ | .incXd _ _ | .decXd _ _ | .ldXdN _ _ _ | .ldRXd _ _ _ | .ldXdR _ _ _ | .ldRRX _ _ _
  | .addAXh _ _ | .addAXd _ _ | .adcAXh _ _ | .adcAXd _ _ | .subXh _ _ | .subXd _ _ | .sbcAXh _ _ | .sbcAXd _ _
  | .andXh _ _ | .andXd _ _ | .xorXh _ _ | .xorXd _ _ | .orXh _ _ | .orXd _ _ | .cpXh _ _ | .cpXd _ _ | .ddCb _ _ _
  | .popIx _ | .exSpIx _ | .pushIx _ | .jpIx _ | .ldSpIx _ | .edAfterIndex _ _ _ _ | .prefixIgnored _ _ _ _
  | .rlcXd _ _ _ | .rrcXd _ _ _ | .rlXd _ _ _ | .rrXd _ _ _ | .slaXd _ _ _ | .sraXd _ _ _ | .sllXd _ _ _
  | .srlXd _ _ _ | .bitXd _ _ _ _ | .resXd _ _ _ _ | .setXd _ _ _ _ => false

/-- Step 6 of 60_exceptions.md R601: `lastQ <- Q; instruction-complete()` when a logical instruction ends. -/
def State.complete (s : State) : State := ((s.setLastQ s.q).emit .instructionComplete).setKind .insn

/-- The end of a step that ran an instruction. -/
def State.finish (s : State) (i : Instr) : State := if isPrefixStep i then s.setKind .pfx else s.complete

/-- Changing the next state of a result. -/
def onNext (r : Result) (g : State → State) : Result :=
  match r with
  | .next s => .next (g s)
  | .fault e => .fault e
  | .refused e => .refused e

/-- Steps 4 to 6 of 60_exceptions.md R601. -/
def State.instructionStep (s : State) : Result :=
  onNext (exec s.decoded (s.fetched s.decoded)) fun t => t.finish s.decoded

/-- The step begins at an instruction boundary (60_exceptions.md R602). -/
def State.atBoundary (s : State) : Bool := s.pfx.isNone

/-- A reset is taken (60_exceptions.md R615). -/
def State.takesReset (s : State) : Bool := s.atBoundary && s.resetRequest

/-- An NMI is taken, unless a reset is (60_exceptions.md R604). -/
def State.takesNmi (s : State) : Bool := s.atBoundary && s.nmiPending

/-- The maskable interrupt is accepted, unless a reset or an NMI is taken (60_exceptions.md R605). -/
def State.takesInt (s : State) : Bool := s.atBoundary && s.iff1 && !s.pendingEI && s.intLine

/-- A halt step is done, unless something above is (60_exceptions.md R601 step 3). -/
def State.staysHalted (s : State) : Bool := s.atBoundary && s.halted

/-- `Step()`: reset, NMI, maskable interrupt, halt step, or an instruction, in this order (60_exceptions.md R601, R606). -/
def State.cycle (s : State) : Result :=
  if s.takesReset then .next (s.applyReset.setKind .reset)
  else if s.takesNmi then onNext s.serviceNmi fun t => t.setKind .nmi
  else if s.takesInt then onNext s.serviceInt fun t => t.setKind .int
  else if s.staysHalted then .next (s.haltStep.setKind .halt)
  else s.instructionStep

/-- Four bytes placed at PC, with the prefix latch to decode them under. -/
def State.placed (s : State) (latch : Option Idx) (b0 b1 b2 b3 : Byte) : State :=
  ((((s.poke s.pc b0).poke (s.pc + 1#16) b1).poke (s.pc + 2#16) b2).poke (s.pc + 3#16) b3).setPfx latch

/-- Nothing is in the way of running the instruction at PC in the next step: no reset, NMI or maskable interrupt is taken, the
core is not halted and no breakpoint is at PC. -/
def State.cleared (s : State) : State :=
  { s with
    resetRequest := false, nmiPending := false, intLine := s.intLine && !s.takesInt, halted := false,
    breakpoints := disableAddr s.pc.toNat s.breakpoints }

end Sys2Proof.Machine
end

