-- ==== Sys2Proof/Machine/Step.lean ====
section
/-! DEFINITION. The fixed names of the step. -/

namespace Sys2Proof.Machine

/-- One `Step()` (60_exceptions.md R601). -/
def step (s : State) : Host.Outcome State Fault Refusal := s.cycle

/-- The state with an instruction word stored where the next step fetches it (log entries 13 and 14): the bytes at PC; for a
word that begins with DD or FD, the bytes after that prefix, with the prefix latched as its prefix step leaves it. Where the
latch is clear, what would run instead of the instruction is taken away. -/
def State.withFetchWord (s : State) (nbits w : Nat) : State :=
  match wordStep nbits w with
  | (none, b0, b1, b2, b3) => s.cleared.placed none b0 b1 b2 b3
  | (some x, b0, b1, b2, b3) => s.placed (some x) b0 b1 b2 b3

end Sys2Proof.Machine
end

