-- ==== Sys2Proof/Machine/HostInterface.lean ====
section
/-! DEFINITION. What the host does to the core between steps (60_exceptions.md R623, D30): its inputs, the breakpoint set, and
get and set of every register. Setting a register changes that register and nothing else. Log entry 15. -/

namespace Sys2Proof.Machine

/-- "assert NMI" (60_exceptions.md R604). -/
def State.assertNmi (s : State) : State := s.setNmiPending true

/-- "set INT line (level)" (60_exceptions.md R605). -/
def State.setIntLine (s : State) (level : Bool) : State := { s with intLine := level }

/-- "request reset" (60_exceptions.md R615). -/
def State.requestReset (s : State) : State := { s with resetRequest := true }

/-- "enable breakpoint(a)" (60_exceptions.md R620). -/
def State.enableBreakpoint (s : State) (a : Word) : State := { s with breakpoints := enableAddr a.toNat s.breakpoints }

/-- "disable breakpoint(a)". -/
def State.disableBreakpoint (s : State) (a : Word) : State := { s with breakpoints := disableAddr a.toNat s.breakpoints }

/-- The 8-bit registers the host names: every half of both sets, the halves of IX and IY, I and R. -/
inductive ByteReg where
  | a | f | b | c | d | e | h | l
  | aAlt | fAlt | bAlt | cAlt | dAlt | eAlt | hAlt | lAlt
  | ixh | ixl | iyh | iyl | i | r
  deriving DecidableEq, Repr

/-- The 16-bit registers the host names. -/
inductive WordReg where
  | af | bc | de | hl | afAlt | bcAlt | deAlt | hlAlt | ix | iy | sp | pc
  deriving DecidableEq, Repr

/-- The flag bits the host names (10_state.md R27). -/
inductive FlagBit where
  | c | n | pv | x | h | y | z | s
  deriving DecidableEq, Repr

/-- Get an 8-bit register; R with all 8 bits. -/
def State.getByteReg (s : State) : ByteReg → Byte
  | .a => s.a
  | .f => s.f
  | .b => s.b
  | .c => s.c
  | .d => s.d
  | .e => s.e
  | .h => s.h
  | .l => s.l
  | .aAlt => s.aAlt
  | .fAlt => s.fAlt
  | .bAlt => s.bAlt
  | .cAlt => s.cAlt
  | .dAlt => s.dAlt
  | .eAlt => s.eAlt
  | .hAlt => s.hAlt
  | .lAlt => s.lAlt
  | .ixh => s.idxHalf .ix .high
  | .ixl => s.idxHalf .ix .low
  | .iyh => s.idxHalf .iy .high
  | .iyl => s.idxHalf .iy .low
  | .i => s.i
  | .r => s.r

/-- Set an 8-bit register. -/
def State.setByteReg (s : State) (k : ByteReg) (v : Byte) : State :=
  match k with
  | .a => { s with a := v }
  | .f => { s with f := v }
  | .b => { s with b := v }
  | .c => { s with c := v }
  | .d => { s with d := v }
  | .e => { s with e := v }
  | .h => { s with h := v }
  | .l => { s with l := v }
  | .aAlt => { s with aAlt := v }
  | .fAlt => { s with fAlt := v }
  | .bAlt => { s with bAlt := v }
  | .cAlt => { s with cAlt := v }
  | .dAlt => { s with dAlt := v }
  | .eAlt => { s with eAlt := v }
  | .hAlt => { s with hAlt := v }
  | .lAlt => { s with lAlt := v }
  | .ixh => s.setIdxHalf .ix .high v
  | .ixl => s.setIdxHalf .ix .low v
  | .iyh => s.setIdxHalf .iy .high v
  | .iyl => s.setIdxHalf .iy .low v
  | .i => s.setI v
  | .r => s.setR v

/-- Get a 16-bit register. -/
def State.getWordReg (s : State) : WordReg → Word
  | .af => s.af
  | .bc => s.bc
  | .de => s.de
  | .hl => s.hl
  | .afAlt => join s.aAlt s.fAlt
  | .bcAlt => join s.bAlt s.cAlt
  | .deAlt => join s.dAlt s.eAlt
  | .hlAlt => join s.hAlt s.lAlt
  | .ix => s.ix
  | .iy => s.iy
  | .sp => s.sp
  | .pc => s.pc

/-- Set a 16-bit register. -/
def State.setWordReg (s : State) (k : WordReg) (v : Word) : State :=
  match k with
  | .af => s.setAf v
  | .bc => s.setBc v
  | .de => s.setDe v
  | .hl => s.setHl v
  | .afAlt => s.setAfAlt v
  | .bcAlt => { s with bAlt := hi v, cAlt := lo v }
  | .deAlt => { s with dAlt := hi v, eAlt := lo v }
  | .hlAlt => { s with hAlt := hi v, lAlt := lo v }
  | .ix => s.setIdx .ix v
  | .iy => s.setIdx .iy v
  | .sp => s.setSp v
  | .pc => s.setPc v

/-- The mask of a flag bit in F (10_state.md R27). -/
def FlagBit.mask : FlagBit → Byte
  | .c => 0x01#8
  | .n => 0x02#8
  | .pv => 0x04#8
  | .x => 0x08#8
  | .h => 0x10#8
  | .y => 0x20#8
  | .z => 0x40#8
  | .s => 0x80#8

/-- Get one flag bit. -/
def State.getFlagBit (s : State) (k : FlagBit) : Bool := s.f &&& k.mask != 0#8

/-- Set one flag bit: the other bits of F, and Q, stay (D30). -/
def State.setFlagBit (s : State) (k : FlagBit) (v : Bool) : State :=
  { s with f := (s.f &&& ~~~k.mask) ||| maskIf v k.mask }

end Sys2Proof.Machine
end

