-- ==== Sys2Proof/Machine/Effects.lean ====
section
/-! DEFINITION. The terms that statements about instructions use: which pieces of state, which flags and which addresses of
memory the rules let an instruction write, and the operand forms as functions to `Instr`. The machine does not use this file. -/

namespace Sys2Proof.Machine

/-- The pieces of state an instruction's rule can name as written (PC, F, Q and memory are said separately). -/
inductive Piece where
  | a | b | c | d | e | h | l | afAlt | generalAlt | ix | iy | sp | i | r | memptr | iff1 | iff2 | im | pendingEI | halted
  | pfx | lastLdAIR | ports
  deriving DecidableEq, Repr

/-- Every piece outside the list is as before, and so is all that only the host or the step itself writes (10_state.md R41,
R42, R45, R47, R49). -/
def State.keptBut (ws : List Piece) (s t : State) : Prop :=
  (.a ∈ ws ∨ t.a = s.a) ∧ (.b ∈ ws ∨ t.b = s.b) ∧ (.c ∈ ws ∨ t.c = s.c) ∧ (.d ∈ ws ∨ t.d = s.d) ∧
  (.e ∈ ws ∨ t.e = s.e) ∧ (.h ∈ ws ∨ t.h = s.h) ∧ (.l ∈ ws ∨ t.l = s.l) ∧
  (.afAlt ∈ ws ∨ (t.aAlt = s.aAlt ∧ t.fAlt = s.fAlt)) ∧
  (.generalAlt ∈ ws ∨ (t.bAlt = s.bAlt ∧ t.cAlt = s.cAlt ∧ t.dAlt = s.dAlt ∧ t.eAlt = s.eAlt ∧ t.hAlt = s.hAlt ∧
    t.lAlt = s.lAlt)) ∧
  (.ix ∈ ws ∨ t.ix = s.ix) ∧ (.iy ∈ ws ∨ t.iy = s.iy) ∧ (.sp ∈ ws ∨ t.sp = s.sp) ∧ (.i ∈ ws ∨ t.i = s.i) ∧
  (.r ∈ ws ∨ t.r = s.r) ∧ (.memptr ∈ ws ∨ t.memptr = s.memptr) ∧ (.iff1 ∈ ws ∨ t.iff1 = s.iff1) ∧
  (.iff2 ∈ ws ∨ t.iff2 = s.iff2) ∧ (.im ∈ ws ∨ t.im = s.im) ∧ (.pendingEI ∈ ws ∨ t.pendingEI = s.pendingEI) ∧
  (.halted ∈ ws ∨ t.halted = s.halted) ∧ (.pfx ∈ ws ∨ t.pfx = s.pfx) ∧
  (.lastLdAIR ∈ ws ∨ t.lastLdAIR = s.lastLdAIR) ∧ (.ports ∈ ws ∨ (t.portAnswers = s.portAnswers ∧ t.draws = s.draws)) ∧
  t.nmiPending = s.nmiPending ∧ t.intLine = s.intLine ∧ t.resetRequest = s.resetRequest ∧ t.breakpoints = s.breakpoints ∧
  t.lastQ = s.lastQ ∧ t.ackAnswers = s.ackAnswers ∧ t.hookAnswers = s.hookAnswers ∧ t.params = s.params ∧ t.kind = s.kind

/-- A register as a piece of state. -/
def Reg8.piece : Reg8 → Piece
  | .b => .b | .c => .c | .d => .d | .e => .e | .h => .h | .l => .l | .a => .a

/-- A register pair as pieces of state. -/
def Rp.pieces : Rp → List Piece
  | .bc => [.b, .c] | .de => [.d, .e] | .hl => [.h, .l] | .sp => [.sp]

/-- A pair of PUSH and POP as pieces of state (F is said separately). -/
def Rp2.pieces : Rp2 → List Piece
  | .bc => [.b, .c] | .de => [.d, .e] | .hl => [.h, .l] | .af => [.a]

/-- An index register as a piece of state. -/
def Idx.piece : Idx → Piece
  | .ix => .ix | .iy => .iy

/-- A register of the LD forms with an index half, as a piece of state. -/
def RegX.piece (x : Idx) : RegX → Piece
  | .b => .b | .c => .c | .d => .d | .e => .e | .xh => Idx.piece x | .xl => Idx.piece x | .a => .a

/-- The register copy of the DD CB forms, as pieces of state. -/
def copyPieces : Option Reg8 → List Piece
  | some r => [Reg8.piece r]
  | none => []

/-- The pieces that the rule of an instruction writes. A naming row writes what the instruction it names writes. -/
def piecesOf : Instr → List Piece
  | .nop | .jpHl | .jpIx _ | .ldMR _ | .ldMN _ | .scf | .ccf | .incM | .decM | .cpR _ | .cpM | .cpN _
  | .cpXh _ _ | .rlcM | .rrcM | .rlM | .rrM | .slaM | .sraM | .sllM | .srlM | .bitR _ _ | .bitM _ | .resM _ | .setM _
  | .nopEd0 _ | .nopEd2 _ _ | .nopEd3 _ | .nopEd7 _ => []
  | .halt => [.halted]
  | .di => [.iff1, .iff2]
  | .ei => [.iff1, .iff2, .pendingEI]
  | .im0 _ _ | .im1 _ | .im2 _ => [.im]
  | .ldIA => [.i]
  | .ldRA => [.r]
  | .ddFdPrefix _ | .prefixAgain _ => [.pfx]
  | .exAfAf => [.a, .afAlt]
  | .exx => [.b, .c, .d, .e, .h, .l, .generalAlt]
  | .exDeHl => [.d, .e, .h, .l]
  | .exSpHl => [.h, .l, .memptr]
  | .exSpIx x => [Idx.piece x, .memptr]
  | .djnz _ => [.b, .memptr]
  | .jr _ | .jrCc _ _ | .jpNn _ | .jpCcNn _ _ => [.memptr]
  | .callNn _ | .callCcNn _ _ | .ret | .retCc _ | .rst _ => [.sp, .memptr]
  | .retn _ | .reti => [.iff1, .sp, .memptr]
  | .ldDdNn p _ => Rp.pieces p
  | .ldIxNn x _ | .incIx x | .decIx x => [Idx.piece x]
  | .ldXhN x _ _ | .incXh x _ | .decXh x _ => [Idx.piece x]
  | .ldRRX x r _ => [RegX.piece x r]
  | .ldSpHl | .ldSpIx _ => [.sp]
  | .pushQq _ | .pushIx _ => [.sp]
  | .popQq p => .sp :: Rp2.pieces p
  | .popIx x => [.sp, Idx.piece x]
  | .ldHlNn _ => [.h, .l, .memptr]
  | .ldDdMem p _ => .memptr :: Rp.pieces p
  | .ldIxMem x _ => [Idx.piece x, .memptr]
  | .ldNnHl _ | .ldNnDd _ _ | .ldNnIx _ _ | .ldNnA _ | .ldPairA _ => [.memptr]
  | .ldANn _ | .ldAPair _ => [.a, .memptr]
  | .ldRR r _ | .ldRN r _ | .ldRM r | .incR r | .decR r | .resR _ r | .setR _ r => [Reg8.piece r]
  | .rlcR r | .rrcR r | .rlR r | .rrR r | .slaR r | .sraR r | .sllR r | .srlR r => [Reg8.piece r]
  | .ldRXd _ r _ => [Reg8.piece r, .memptr]
  | .ldXdR _ _ _ | .ldXdN _ _ _ | .incXd _ _ | .decXd _ _ | .cpXd _ _ | .bitXd _ _ _ _ => [.memptr]
  | .rlcXd _ _ r | .rrcXd _ _ r | .rlXd _ _ r | .rrXd _ _ r | .slaXd _ _ r | .sraXd _ _ r | .sllXd _ _ r
  | .srlXd _ _ r | .resXd _ _ _ r | .setXd _ _ _ r => .memptr :: copyPieces r
  | .addAR _ | .addAM | .addAN _ | .addAXh _ _ | .adcAR _ | .adcAM | .adcAN _ | .adcAXh _ _ | .subR _ | .subM | .subN _
  | .subXh _ _ | .sbcAR _ | .sbcAM | .sbcAN _ | .sbcAXh _ _ | .andR _ | .andM | .andN _ | .andXh _ _ | .xorR _ | .xorM
  | .xorN _ | .xorXh _ _ | .orR _ | .orM | .orN _ | .orXh _ _ | .daa | .cpl | .neg _ | .rlca | .rrca | .rla | .rra => [.a]
  | .addAXd _ _ | .adcAXd _ _ | .subXd _ _ | .sbcAXd _ _ | .andXd _ _ | .xorXd _ _ | .orXd _ _ => [.a, .memptr]
  | .addHlSs _ | .adcHlSs _ | .sbcHlSs _ => [.h, .l, .memptr]
  | .addIxPp x _ => [Idx.piece x, .memptr]
  | .incSs p | .decSs p => Rp.pieces p
  | .rld | .rrd => [.a, .memptr]
  | .ldAI | .ldAR => [.a, .lastLdAIR]
  | .inAN _ => [.a, .memptr, .ports]
  | .inRC r => [Reg8.piece r, .memptr, .ports]
  | .inC => [.memptr, .ports]
  | .outNA _ | .outCR _ | .outC0 => [.memptr]
  | .ldi | .ldd => [.b, .c, .d, .e, .h, .l]
  | .ldir | .lddr => [.b, .c, .d, .e, .h, .l, .memptr]
  | .cpi | .cpd | .cpir | .cpdr => [.b, .c, .h, .l, .memptr]
  | .ini | .ind | .inir | .indr => [.b, .h, .l, .memptr, .ports]
  | .outi | .outd | .otir | .otdr => [.b, .h, .l, .memptr]
  | .cbPrefix _ | .edPrefix _ _ _ | .ddCb _ _ _ | .edAfterIndex _ _ _ _ | .prefixIgnored _ _ _ _ => []

/-- Every piece that an instruction writes, the naming rows through the instruction they name. -/
def writes (i : Instr) : List Piece := piecesOf i.resolve

/-- The flags that an instruction's rule writes, as a mask of F; the others keep their bits (10_state.md R29). -/
def flagsOf : Instr → Byte
  | .addAR _ | .addAM | .addAN _ | .addAXh _ _ | .addAXd _ _ | .adcAR _ | .adcAM | .adcAN _ | .adcAXh _ _ | .adcAXd _ _
  | .subR _ | .subM | .subN _ | .subXh _ _ | .subXd _ _ | .sbcAR _ | .sbcAM | .sbcAN _ | .sbcAXh _ _ | .sbcAXd _ _
  | .andR _ | .andM | .andN _ | .andXh _ _ | .andXd _ _ | .xorR _ | .xorM | .xorN _ | .xorXh _ _ | .xorXd _ _
  | .orR _ | .orM | .orN _ | .orXh _ _ | .orXd _ _ | .cpR _ | .cpM | .cpN _ | .cpXh _ _ | .cpXd _ _ | .neg _
  | .adcHlSs _ | .sbcHlSs _ | .rlcR _ | .rlcM | .rlcXd _ _ _ | .rrcR _ | .rrcM | .rrcXd _ _ _ | .rlR _ | .rlM
  | .rlXd _ _ _ | .rrR _ | .rrM | .rrXd _ _ _ | .slaR _ | .slaM | .slaXd _ _ _ | .sraR _ | .sraM | .sraXd _ _ _
  | .sllR _ | .sllM | .sllXd _ _ _ | .srlR _ | .srlM | .srlXd _ _ _ | .ini | .ind | .inir | .indr | .outi | .outd
  | .otir | .otdr => 0xFF#8
  | .incR _ | .incM | .incXh _ _ | .incXd _ _ | .decR _ | .decM | .decXh _ _ | .decXd _ _ | .bitR _ _ | .bitM _
  | .bitXd _ _ _ _ | .rld | .rrd | .inRC _ | .inC | .ldAI | .ldAR | .cpi | .cpd | .cpir | .cpdr => 0xFE#8
  | .addHlSs _ | .addIxPp _ _ | .scf | .ccf | .rlca | .rrca | .rla | .rra => 0x3B#8
  | .cpl => 0x3A#8
  | .daa => 0xFD#8
  | .ldi | .ldd | .ldir | .lddr => 0x3E#8
  | .nop | .exAfAf | .djnz _ | .jr _ | .jrCc _ _ | .ldDdNn _ _ | .ldPairA _ | .ldAPair _ | .ldNnHl _ | .ldHlNn _
  | .ldNnA _ | .ldANn _ | .incSs _ | .decSs _ | .ldRN _ _ | .ldMN _ | .ldRR _ _ | .ldRM _ | .ldMR _ | .halt
  | .retCc _ | .popQq _ | .ret | .exx | .jpHl | .ldSpHl | .jpCcNn _ _ | .jpNn _ | .cbPrefix _ | .outNA _ | .inAN _
  | .exSpHl | .exDeHl | .di | .ei | .callCcNn _ _ | .pushQq _ | .callNn _ | .ddFdPrefix _ | .edPrefix _ _ _ | .rst _
  | .resR _ _ | .resM _ | .setR _ _ | .setM _ | .outCR _ | .outC0 | .ldNnDd _ _ | .ldDdMem _ _ | .reti | .retn _
  | .im0 _ _ | .im1 _ | .im2 _ | .ldIA | .ldRA | .nopEd7 _ | .nopEd0 _ | .nopEd2 _ _ | .nopEd3 _ | .ldIxNn _ _
  | .ldNnIx _ _ | .incIx _ | .ldXhN _ _ _ | .ldIxMem _ _ | .decIx _ | .ldXdN _ _ _ | .ldRXd _ _ _ | .ldXdR _ _ _
  | .ldRRX _ _ _ | .ddCb _ _ _ | .popIx _ | .exSpIx _ | .pushIx _ | .jpIx _ | .ldSpIx _ | .prefixAgain _
  | .edAfterIndex _ _ _ _ | .prefixIgnored _ _ _ _ | .resXd _ _ _ _ | .setXd _ _ _ _ => 0x00#8

/-- POP AF and EX AF,AF', which load F as data (10_state.md R29, R45). -/
def loadsF : Instr → Bool
  | .popQq p => p == .af
  | .exAfAf => true
  | .nop | .djnz _ | .jr _ | .jrCc _ _ | .ldDdNn _ _ | .addHlSs _ | .ldPairA _ | .ldAPair _ | .ldNnHl _ | .ldHlNn _
  | .ldNnA _ | .ldANn _ | .incSs _ | .decSs _ | .incR _ | .incM | .decR _ | .decM | .ldRN _ _ | .ldMN _ | .rlca
  | .rrca | .rla | .rra | .daa | .cpl | .scf | .ccf | .ldRR _ _ | .ldRM _ | .ldMR _ | .halt | .addAR _ | .addAM
  | .addAN _ | .adcAR _ | .adcAM | .adcAN _ | .subR _ | .subM | .subN _ | .sbcAR _ | .sbcAM | .sbcAN _ | .andR _
  | .andM | .andN _ | .xorR _ | .xorM | .xorN _ | .orR _ | .orM | .orN _ | .cpR _ | .cpM | .cpN _ | .retCc _ | .ret
  | .exx | .jpHl | .ldSpHl | .jpCcNn _ _ | .jpNn _ | .cbPrefix _ | .outNA _ | .inAN _ | .exSpHl | .exDeHl | .di
  | .ei | .callCcNn _ _ | .pushQq _ | .callNn _ | .ddFdPrefix _ | .edPrefix _ _ _ | .rst _ | .rlcR _ | .rlcM
  | .rrcR _ | .rrcM | .rlR _ | .rlM | .rrR _ | .rrM | .slaR _ | .slaM | .sraR _ | .sraM | .sllR _ | .sllM | .srlR _
  | .srlM | .bitR _ _ | .bitM _ | .resR _ _ | .resM _ | .setR _ _ | .setM _ | .inRC _ | .inC | .outCR _ | .outC0
  | .sbcHlSs _ | .adcHlSs _ | .ldNnDd _ _ | .ldDdMem _ _ | .neg _ | .reti | .retn _ | .im0 _ _ | .im1 _ | .im2 _
  | .ldIA | .ldRA | .ldAI | .ldAR | .rrd | .rld | .nopEd7 _ | .ldi | .cpi | .ini | .outi | .ldd | .cpd | .ind
  | .outd | .ldir | .cpir | .inir | .otir | .lddr | .cpdr | .indr | .otdr | .nopEd0 _ | .nopEd2 _ _ | .nopEd3 _
  | .addIxPp _ _ | .ldIxNn _ _ | .ldNnIx _ _ | .incIx _ | .incXh _ _ | .decXh _ _ | .ldXhN _ _ _ | .ldIxMem _ _
  | .decIx _ | .incXd _ _ | .decXd _ _ | .ldXdN _ _ _ | .ldRXd _ _ _ | .ldXdR _ _ _ | .ldRRX _ _ _ | .addAXh _ _
  | .addAXd _ _ | .adcAXh _ _ | .adcAXd _ _ | .subXh _ _ | .subXd _ _ | .sbcAXh _ _ | .sbcAXd _ _ | .andXh _ _
  | .andXd _ _ | .xorXh _ _ | .xorXd _ _ | .orXh _ _ | .orXd _ _ | .cpXh _ _ | .cpXd _ _ | .ddCb _ _ _ | .popIx _
  | .exSpIx _ | .pushIx _ | .jpIx _ | .ldSpIx _ | .prefixAgain _ | .edAfterIndex _ _ _ _ | .prefixIgnored _ _ _ _
  | .rlcXd _ _ _ | .rrcXd _ _ _ | .rlXd _ _ _ | .rrXd _ _ _ | .slaXd _ _ _ | .sraXd _ _ _ | .sllXd _ _ _
  | .srlXd _ _ _ | .bitXd _ _ _ _ | .resXd _ _ _ _ | .setXd _ _ _ _ => false

/-- The flags that change, as a mask of F. -/
def flagsChanged (i : Instr) : Byte := if loadsF i.resolve then 0xFF#8 else flagsOf i.resolve

/-- The instruction sets Q: its rule lists a flag as written, or it loads F as data and Q_ON_POP_EX_AF says so
(10_state.md R45, D13). -/
def setsQ (p : Config.Params) (i : Instr) : Bool := flagsOf i.resolve != 0#8 || (loadsF i.resolve && p.qOnPopExAF)

/-- The addresses that an instruction stores to, from the state its meaning starts in. -/
def storedAddrs (s : State) : Instr → List Word
  | .ldMR _ | .ldMN _ | .incM | .decM | .rlcM | .rrcM | .rlM | .rrM | .slaM | .sraM | .sllM | .srlM | .setM _ | .resM _
  | .rld | .rrd | .ini | .ind | .inir | .indr => [s.hl]
  | .ldXdR x _ d | .ldXdN x d _ | .incXd x d | .decXd x d | .rlcXd x d _ | .rrcXd x d _ | .rlXd x d _ | .rrXd x d _
  | .slaXd x d _ | .sraXd x d _ | .sllXd x d _ | .srlXd x d _ | .setXd x _ d _ | .resXd x _ d _ => [s.ea x d]
  | .ldPairA p => [s.bcDe p]
  | .ldNnA nn => [nn]
  | .ldNnHl nn | .ldNnDd _ nn | .ldNnIx _ nn => [nn, nn + 1#16]
  | .pushQq _ | .pushIx _ | .callNn _ | .rst _ => [s.sp - 1#16, s.sp - 2#16]
  | .callCcNn cc _ => if condHolds cc s.f then [s.sp - 1#16, s.sp - 2#16] else []
  | .exSpHl | .exSpIx _ => [s.sp, s.sp + 1#16]
  | .ldi | .ldd | .ldir | .lddr => [s.de]
  | .nop | .exAfAf | .djnz _ | .jr _ | .jrCc _ _ | .ldDdNn _ _ | .addHlSs _ | .ldAPair _ | .ldHlNn _ | .ldANn _
  | .incSs _ | .decSs _ | .incR _ | .decR _ | .ldRN _ _ | .rlca | .rrca | .rla | .rra | .daa | .cpl | .scf | .ccf
  | .ldRR _ _ | .ldRM _ | .halt | .addAR _ | .addAM | .addAN _ | .adcAR _ | .adcAM | .adcAN _ | .subR _ | .subM
  | .subN _ | .sbcAR _ | .sbcAM | .sbcAN _ | .andR _ | .andM | .andN _ | .xorR _ | .xorM | .xorN _ | .orR _ | .orM
  | .orN _ | .cpR _ | .cpM | .cpN _ | .retCc _ | .popQq _ | .ret | .exx | .jpHl | .ldSpHl | .jpCcNn _ _ | .jpNn _
  | .cbPrefix _ | .outNA _ | .inAN _ | .exDeHl | .di | .ei | .ddFdPrefix _ | .edPrefix _ _ _ | .rlcR _ | .rrcR _
  | .rlR _ | .rrR _ | .slaR _ | .sraR _ | .sllR _ | .srlR _ | .bitR _ _ | .bitM _ | .resR _ _ | .setR _ _ | .inRC _
  | .inC | .outCR _ | .outC0 | .sbcHlSs _ | .adcHlSs _ | .ldDdMem _ _ | .neg _ | .reti | .retn _ | .im0 _ _ | .im1 _
  | .im2 _ | .ldIA | .ldRA | .ldAI | .ldAR | .nopEd7 _ | .cpi | .outi | .cpd | .outd | .cpir | .otir | .cpdr | .otdr
  | .nopEd0 _ | .nopEd2 _ _ | .nopEd3 _ | .addIxPp _ _ | .ldIxNn _ _ | .incIx _ | .incXh _ _ | .decXh _ _
  | .ldXhN _ _ _ | .ldIxMem _ _ | .decIx _ | .ldRXd _ _ _ | .ldRRX _ _ _ | .addAXh _ _ | .addAXd _ _ | .adcAXh _ _
  | .adcAXd _ _ | .subXh _ _ | .subXd _ _ | .sbcAXh _ _ | .sbcAXd _ _ | .andXh _ _ | .andXd _ _ | .xorXh _ _
  | .xorXd _ _ | .orXh _ _ | .orXd _ _ | .cpXh _ _ | .cpXd _ _ | .ddCb _ _ _ | .popIx _ | .jpIx _ | .ldSpIx _
  | .prefixAgain _ | .edAfterIndex _ _ _ _ | .prefixIgnored _ _ _ _ | .bitXd _ _ _ _ => []

/-- The same, the naming rows through the instruction they name. -/
def storesTo (i : Instr) (s : State) : List Word := storedAddrs s i.resolve

/-- The requests of `n` reads from an address on, in the order they are issued (20_memory.md R72). -/
def requestsFrom (request : Word → BusEvent) (a : Word) (n : Nat) : List BusEvent :=
  (List.range n).map fun k => request (a + BitVec.ofNat 16 k)

/-- The byte registers that a 16-bit register of the host's interface is made of, high byte first (10_state.md R20 to R23);
SP and PC have none. -/
def WordReg.halves : WordReg → List ByteReg
  | .af => [.a, .f] | .bc => [.b, .c] | .de => [.d, .e] | .hl => [.h, .l]
  | .afAlt => [.aAlt, .fAlt] | .bcAlt => [.bAlt, .cAlt] | .deAlt => [.dAlt, .eAlt] | .hlAlt => [.hAlt, .lAlt]
  | .ix => [.ixh, .ixl] | .iy => [.iyh, .iyl] | .sp | .pc => []

/-! ### Operand forms as functions to `Instr` -/

/-- The value of an operand form (42_alu8.md R280). -/
def Src.value (s : State) : Src → Byte
  | .reg r => s.reg8 r
  | .imm n => n
  | .mem => s.peek s.hl
  | .half x h => s.idxHalf x h
  | .indexed x d => s.peek (s.ea x d)

/-- The state after an operand form has been read: the read request, and MEMPTR for (IX+d) (42_alu8.md R280). -/
def Src.after (s : State) : Src → State
  | .reg _ | .imm _ | .half _ _ => s
  | .mem => s.emit (.readByte s.hl)
  | .indexed x d => (s.setMemptr (s.ea x d)).emit (.readByte (s.ea x d))

/-- ADD A,v in each operand form. -/
def addForm : Src → Instr
  | .reg r => .addAR r | .imm n => .addAN n | .mem => .addAM | .half x h => .addAXh x h | .indexed x d => .addAXd x d

/-- ADC A,v. -/
def adcForm : Src → Instr
  | .reg r => .adcAR r | .imm n => .adcAN n | .mem => .adcAM | .half x h => .adcAXh x h | .indexed x d => .adcAXd x d

/-- SUB v. -/
def subForm : Src → Instr
  | .reg r => .subR r | .imm n => .subN n | .mem => .subM | .half x h => .subXh x h | .indexed x d => .subXd x d

/-- SBC A,v. -/
def sbcForm : Src → Instr
  | .reg r => .sbcAR r | .imm n => .sbcAN n | .mem => .sbcAM | .half x h => .sbcAXh x h | .indexed x d => .sbcAXd x d

/-- AND v. -/
def andForm : Src → Instr
  | .reg r => .andR r | .imm n => .andN n | .mem => .andM | .half x h => .andXh x h | .indexed x d => .andXd x d

/-- XOR v. -/
def xorForm : Src → Instr
  | .reg r => .xorR r | .imm n => .xorN n | .mem => .xorM | .half x h => .xorXh x h | .indexed x d => .xorXd x d

/-- OR v. -/
def orForm : Src → Instr
  | .reg r => .orR r | .imm n => .orN n | .mem => .orM | .half x h => .orXh x h | .indexed x d => .orXd x d

/-- CP v. -/
def cpForm : Src → Instr
  | .reg r => .cpR r | .imm n => .cpN n | .mem => .cpM | .half x h => .cpXh x h | .indexed x d => .cpXd x d

/-- The encoding of an operand form with an `alu[y]` field (42_alu8.md R280). -/
def aluEncoding (y : Nat) : Src → List Byte
  | .reg r => [BitVec.ofNat 8 (0x80 + 8 * y + r.field.toNat)]
  | .imm n => [BitVec.ofNat 8 (0xC6 + 8 * y), n]
  | .mem => [BitVec.ofNat 8 (0x86 + 8 * y)]
  | .half x .high => [x.byte, BitVec.ofNat 8 (0x84 + 8 * y)]
  | .half x .low => [x.byte, BitVec.ofNat 8 (0x85 + 8 * y)]
  | .indexed x d => [x.byte, BitVec.ofNat 8 (0x86 + 8 * y), d]

/-- The eight rotates and shifts, `rot[y]` (30_encoding.md R107). -/
inductive Rot where
  | rlc | rrc | rl | rr | sla | sra | sll | srl
  deriving DecidableEq, Repr

/-- The y field of a rotate (30_encoding.md R107). -/
def Rot.y : Rot → Nat
  | .rlc => 0 | .rrc => 1 | .rl => 2 | .rr => 3 | .sla => 4 | .sra => 5 | .sll => 6 | .srl => 7

/-- The register form of a rotate. -/
def Rot.onReg : Rot → Reg8 → Instr
  | .rlc, r => .rlcR r | .rrc, r => .rrcR r | .rl, r => .rlR r | .rr, r => .rrR r
  | .sla, r => .slaR r | .sra, r => .sraR r | .sll, r => .sllR r | .srl, r => .srlR r

/-- The (HL) form. -/
def Rot.onMem : Rot → Instr
  | .rlc => .rlcM | .rrc => .rrcM | .rl => .rlM | .rr => .rrM | .sla => .slaM | .sra => .sraM | .sll => .sllM | .srl => .srlM

/-- The (IX+d) form, with a register copy or without. -/
def Rot.onIndexed : Rot → Idx → Byte → Option Reg8 → Instr
  | .rlc, x, d, r => .rlcXd x d r | .rrc, x, d, r => .rrcXd x d r | .rl, x, d, r => .rlXd x d r | .rr, x, d, r => .rrXd x d r
  | .sla, x, d, r => .slaXd x d r | .sra, x, d, r => .sraXd x d r | .sll, x, d, r => .sllXd x d r | .srl, x, d, r => .srlXd x d r

/-- The result of a rotate as a number: `v` is the operand, `c` the carry before (44_rotate_bit.md R364, with `<<` as
multiplication and `>>` as division). -/
def Rot.number (k : Rot) (v c : Nat) : Nat :=
  match k with
  | .rlc => v * 2 % 256 + v / 128
  | .rrc => v / 2 + v % 2 * 128
  | .rl => v * 2 % 256 + c
  | .rr => v / 2 + c * 128
  | .sla => v * 2 % 256
  | .sra => v / 2 + v / 128 * 128
  | .sll => v * 2 % 256 + 1
  | .srl => v / 2

/-- The carry out of a rotate: bit 7 of the operand for the left ones, bit 0 for the right ones (44_rotate_bit.md R364). -/
def Rot.carry (k : Rot) (v : Nat) : Bool :=
  match k with
  | .rlc | .rl | .sla | .sll => decide (128 ≤ v)
  | .rrc | .rr | .sra | .srl => v % 2 == 1

/-- The eight bits of F (10_state.md R27). -/
def flagsAre (f : Byte) (s z y h x pv n c : Bool) : Prop :=
  flagS f = s ∧ flagZ f = z ∧ flagY f = y ∧ flagH f = h ∧ flagX f = x ∧ flagPV f = pv ∧ flagN f = n ∧ flagC f = c

/-- The number of 1 bits of a byte is even (10_state.md R31). -/
def evenOnes (v : Byte) : Bool := (List.range 8).countP (fun k => v.getLsbD k) % 2 == 0

/-- A signed sum does not fit in 8 bits: two's-complement overflow (10_state.md R27). -/
def overflows8 (n : Int) : Bool := decide (n < -128) || decide (127 < n)

/-- The same for 16 bits. -/
def overflows16 (n : Int) : Bool := decide (n < -32768) || decide (32767 < n)

/-- The rules that set PC to something else than the address after the instruction (45_control.md, 46_block.md R456,
48_cpu_control.md R491, R501, R502). -/
def transfersControl : Instr → Bool
  | .djnz _ | .jr _ | .jrCc _ _ | .jpNn _ | .jpCcNn _ _ | .jpHl | .jpIx _ | .callNn _ | .callCcNn _ _ | .ret | .retCc _
  | .rst _ | .retn _ | .reti | .halt | .ldir | .lddr | .cpir | .cpdr | .inir | .indr | .otir | .otdr => true
  | .nop | .exAfAf | .ldDdNn _ _ | .addHlSs _ | .ldPairA _ | .ldAPair _ | .ldNnHl _ | .ldHlNn _ | .ldNnA _
  | .ldANn _ | .incSs _ | .decSs _ | .incR _ | .incM | .decR _ | .decM | .ldRN _ _ | .ldMN _ | .rlca | .rrca | .rla
  | .rra | .daa | .cpl | .scf | .ccf | .ldRR _ _ | .ldRM _ | .ldMR _ | .addAR _ | .addAM | .addAN _ | .adcAR _
  | .adcAM | .adcAN _ | .subR _ | .subM | .subN _ | .sbcAR _ | .sbcAM | .sbcAN _ | .andR _ | .andM | .andN _
  | .xorR _ | .xorM | .xorN _ | .orR _ | .orM | .orN _ | .cpR _ | .cpM | .cpN _ | .popQq _ | .exx | .ldSpHl
  | .cbPrefix _ | .outNA _ | .inAN _ | .exSpHl | .exDeHl | .di | .ei | .pushQq _ | .ddFdPrefix _ | .edPrefix _ _ _
  | .rlcR _ | .rlcM | .rrcR _ | .rrcM | .rlR _ | .rlM | .rrR _ | .rrM | .slaR _ | .slaM | .sraR _ | .sraM | .sllR _
  | .sllM | .srlR _ | .srlM | .bitR _ _ | .bitM _ | .resR _ _ | .resM _ | .setR _ _ | .setM _ | .inRC _ | .inC
  | .outCR _ | .outC0 | .sbcHlSs _ | .adcHlSs _ | .ldNnDd _ _ | .ldDdMem _ _ | .neg _ | .im0 _ _ | .im1 _ | .im2 _
  | .ldIA | .ldRA | .ldAI | .ldAR | .rrd | .rld | .nopEd7 _ | .ldi | .cpi | .ini | .outi | .ldd | .cpd | .ind
  | .outd | .nopEd0 _ | .nopEd2 _ _ | .nopEd3 _ | .addIxPp _ _ | .ldIxNn _ _ | .ldNnIx _ _ | .incIx _ | .incXh _ _
  | .decXh _ _ | .ldXhN _ _ _ | .ldIxMem _ _ | .decIx _ | .incXd _ _ | .decXd _ _ | .ldXdN _ _ _ | .ldRXd _ _ _
  | .ldXdR _ _ _ | .ldRRX _ _ _ | .addAXh _ _ | .addAXd _ _ | .adcAXh _ _ | .adcAXd _ _ | .subXh _ _ | .subXd _ _
  | .sbcAXh _ _ | .sbcAXd _ _ | .andXh _ _ | .andXd _ _ | .xorXh _ _ | .xorXd _ _ | .orXh _ _ | .orXd _ _
  | .cpXh _ _ | .cpXd _ _ | .ddCb _ _ _ | .popIx _ | .exSpIx _ | .pushIx _ | .ldSpIx _ | .prefixAgain _
  | .edAfterIndex _ _ _ _ | .prefixIgnored _ _ _ _ | .rlcXd _ _ _ | .rrcXd _ _ _ | .rlXd _ _ _ | .rrXd _ _ _
  | .slaXd _ _ _ | .sraXd _ _ _ | .sllXd _ _ _ | .srlXd _ _ _ | .bitXd _ _ _ _ | .resXd _ _ _ _ | .setXd _ _ _ _ => false

/-- The eight repeating block instructions (46_block.md R456). -/
def repeats : Instr → Bool
  | .ldir | .lddr | .cpir | .cpdr | .inir | .indr | .otir | .otdr => true
  | .nop | .exAfAf | .djnz _ | .jr _ | .jrCc _ _ | .ldDdNn _ _ | .addHlSs _ | .ldPairA _ | .ldAPair _ | .ldNnHl _
  | .ldHlNn _ | .ldNnA _ | .ldANn _ | .incSs _ | .decSs _ | .incR _ | .incM | .decR _ | .decM | .ldRN _ _ | .ldMN _
  | .rlca | .rrca | .rla | .rra | .daa | .cpl | .scf | .ccf | .ldRR _ _ | .ldRM _ | .ldMR _ | .halt | .addAR _
  | .addAM | .addAN _ | .adcAR _ | .adcAM | .adcAN _ | .subR _ | .subM | .subN _ | .sbcAR _ | .sbcAM | .sbcAN _
  | .andR _ | .andM | .andN _ | .xorR _ | .xorM | .xorN _ | .orR _ | .orM | .orN _ | .cpR _ | .cpM | .cpN _
  | .retCc _ | .popQq _ | .ret | .exx | .jpHl | .ldSpHl | .jpCcNn _ _ | .jpNn _ | .cbPrefix _ | .outNA _ | .inAN _
  | .exSpHl | .exDeHl | .di | .ei | .callCcNn _ _ | .pushQq _ | .callNn _ | .ddFdPrefix _ | .edPrefix _ _ _ | .rst _
  | .rlcR _ | .rlcM | .rrcR _ | .rrcM | .rlR _ | .rlM | .rrR _ | .rrM | .slaR _ | .slaM | .sraR _ | .sraM | .sllR _
  | .sllM | .srlR _ | .srlM | .bitR _ _ | .bitM _ | .resR _ _ | .resM _ | .setR _ _ | .setM _ | .inRC _ | .inC
  | .outCR _ | .outC0 | .sbcHlSs _ | .adcHlSs _ | .ldNnDd _ _ | .ldDdMem _ _ | .neg _ | .reti | .retn _ | .im0 _ _
  | .im1 _ | .im2 _ | .ldIA | .ldRA | .ldAI | .ldAR | .rrd | .rld | .nopEd7 _ | .ldi | .cpi | .ini | .outi | .ldd
  | .cpd | .ind | .outd | .nopEd0 _ | .nopEd2 _ _ | .nopEd3 _ | .addIxPp _ _ | .ldIxNn _ _ | .ldNnIx _ _ | .incIx _
  | .incXh _ _ | .decXh _ _ | .ldXhN _ _ _ | .ldIxMem _ _ | .decIx _ | .incXd _ _ | .decXd _ _ | .ldXdN _ _ _
  | .ldRXd _ _ _ | .ldXdR _ _ _ | .ldRRX _ _ _ | .addAXh _ _ | .addAXd _ _ | .adcAXh _ _ | .adcAXd _ _ | .subXh _ _
  | .subXd _ _ | .sbcAXh _ _ | .sbcAXd _ _ | .andXh _ _ | .andXd _ _ | .xorXh _ _ | .xorXd _ _ | .orXh _ _
  | .orXd _ _ | .cpXh _ _ | .cpXd _ _ | .ddCb _ _ _ | .popIx _ | .exSpIx _ | .pushIx _ | .jpIx _ | .ldSpIx _
  | .prefixAgain _ | .edAfterIndex _ _ _ _ | .prefixIgnored _ _ _ _ | .rlcXd _ _ _ | .rrcXd _ _ _ | .rlXd _ _ _
  | .rrXd _ _ _ | .slaXd _ _ _ | .sraXd _ _ _ | .sllXd _ _ _ | .srlXd _ _ _ | .bitXd _ _ _ _ | .resXd _ _ _ _
  | .setXd _ _ _ _ => false

/-- An opcode byte written as a number. -/
def opByte (n : Nat) : Byte := BitVec.ofNat 8 n

/-- `R[6:0]` counted up `n` times, R[7] held (10_state.md R35). -/
def refreshed (r : Byte) (n : Nat) : Byte := opByte (r.toNat / 128 * 128 + (r.toNat + n) % 128)

/-- The carry flag as a number. -/
def carryNat (f : Byte) : Nat := if flagC f then 1 else 0

end Sys2Proof.Machine
end

