-- ==== Sys2Proof/Safety.lean ====
section
/-! DEFINITION. What counts as a safe step, and the invariant of the machine. The core has no fault (60_exceptions.md R600), so
a step is safe when it answers a next state: the two refusals of `Refusal` are all that can stop it. -/

namespace Sys2Proof

open Sys2Proof.Machine

/-- The step answers a next state. -/
def SafeStep (s : State) : Prop := ∃ t, step s = .next t

/-- `n` steps in a row answer a next state. -/
def SafeFor (n : Nat) (s : State) : Prop := ∃ t, core.run n s = .next t

/-- The memory and the breakpoint set are in their canonical forms (20_memory.md R84, 10_state.md R47). -/
def Canonical (s : State) : Prop := s.mem.wf = true ∧ risingFrom 0 s.breakpoints = true

/-- Inside a prefix chain the core is not halted, the EI window is closed and F has not been written by the instruction: the
chain's first byte cleared pendingEI and Q, and nothing sets them before the instruction executes (30_encoding.md R117,
60_exceptions.md R601, R602). -/
def ChainClean (s : State) : Prop := s.pfx.isSome = true → s.halted = false ∧ s.pendingEI = false ∧ s.q = false

/-- The EI window stands open only with IFF1 and IFF2 set, since EI sets all three and every rule that clears a flip-flop
comes after the window closed, or is an NMI entry, which keeps IFF2 (48_cpu_control.md R493, 60_exceptions.md R607). -/
def WindowEnabled (s : State) : Prop := s.pendingEI = true → s.iff2 = true

/-- IFF1 is never set without IFF2: EI sets both, DI and INT entry clear both, NMI entry clears IFF1, RETN and RETI copy IFF2
(48_cpu_control.md R492, R493, R501, R502, 60_exceptions.md R607, R608). -/
def FlipFlopsOrdered (s : State) : Prop := s.iff1 = true → s.iff2 = true

/-- The invariant that every step keeps. -/
structure Inv (s : State) : Prop where
  canonical : Canonical s
  chainClean : ChainClean s
  windowEnabled : WindowEnabled s
  flipFlopsOrdered : FlipFlopsOrdered s

end Sys2Proof
end

