-- ==== Sys2Proof/Certificates/Slice0/Obligations.lean ====
section
/-! DEFINITION. The statements for the provers. Where a statement gives an instruction's result, `exec` starts from the state
after the fetch (PC after the instruction), and the next state is given whole: what it does not name is unchanged. The
constructors a statement covers are those it writes out, or those of the form functions of Machine/Effects.lean. -/

open Sys2Proof Sys2Proof.Machine

/-! ### Decoding -/

/-- Words written out from the maps of 30_encoding.md R114, R115, R116, R120, R121, one or two for each table. -/
def Obligations.DecodeOfKnownWords : Prop :=
  decode none [0x21#8, 0x34#8, 0x12#8] = .ok (.ldDdNn .hl 0x1234#16, []) ∧
  decode none [0x86#8] = .ok (.addAM, []) ∧
  decode none [0xCA#8, 0x00#8, 0x20#8] = .ok (.jpCcNn .z 0x2000#16, []) ∧
  decode none [0xCB#8, 0x7E#8] = .ok (.bitM 7#3, []) ∧
  decode none [0xED#8, 0x43#8, 0x00#8, 0x70#8] = .ok (.ldNnDd .bc 0x7000#16, []) ∧
  decode none [0xED#8, 0xB0#8] = .ok (.ldir, []) ∧
  decode none [0xED#8, 0x4D#8] = .ok (.reti, []) ∧
  decodeWords [0xDD#8, 0x36#8, 0x10#8, 0x7F#8] = .ok (.ldXdN .ix 0x10#8 0x7F#8, []) ∧
  decodeWords [0xFD#8, 0xE9#8] = .ok (.jpIx .iy, []) ∧
  decodeWords [0xDD#8, 0xCB#8, 0x02#8, 0xFC#8] = .ok (.setXd .ix 7#3 0x02#8 (some .h), []) ∧
  decodeWords [0xDD#8, 0xEB#8] = .ok (.exDeHl, []) ∧
  decode none [0xDD#8] = .ok (.ddFdPrefix .ix, [])

/-- Decode and encode agree on the whole instruction set: the bytes of a well-formed instruction decode to it under its prefix
latch, and, unless it is a lone prefix step, so do its words with the DD or FD in front. A naming row's words decode to
the instruction it names (log entry 10). -/
def Obligations.DecodeOfEncodeIsTheInstruction : Prop :=
  ∀ (i : Instr) (rest : List Byte), i.wellFormed = true →
    decode i.latch (i.body ++ rest) = .ok (i.resolve, rest) ∧
    (isPrefixStep i = false → decodeWords (i.encode ++ rest) = .ok (i.resolve, rest))

/-- No encoding is illegal (30_encoding.md R122): any four bytes decode, under any latch, to a well-formed instruction that is no
naming row and whose own bytes are the ones at the front, so no bit of an encoding is dropped. -/
def Obligations.EveryByteStringDecodes : Prop :=
  ∀ (latch : Option Idx) (b0 b1 b2 b3 : Byte),
    (decodeAt latch b0 b1 b2 b3).wellFormed = true ∧
    (decodeAt latch b0 b1 b2 b3).resolve = decodeAt latch b0 b1 b2 b3 ∧
    (decodeAt latch b0 b1 b2 b3).body <+: [b0, b1, b2, b3]

/-! ### The step -/

/-- When no reset, interrupt or halt step takes this step and no breakpoint hook is consulted, the step executes the instruction
that the bytes at PC decode to under the prefix latch, from the state after its fetch, and then ends as
60_exceptions.md R601 step 6 says; a refusal of the instruction is the step's refusal. -/
def Obligations.StepRunsDecodedInstruction : Prop :=
  ∀ (s : State) (i : Instr),
    s.takesReset = false → s.takesNmi = false → s.takesInt = false → s.staysHalted = false → s.hookConsulted = false →
    decodeAt s.pfx (s.peek s.pc) (s.peek (s.pc + 1#16)) (s.peek (s.pc + 2#16)) (s.peek (s.pc + 3#16)) = i →
    (∀ t, exec i (s.fetched i) = .next t →
      step s = .next (if isPrefixStep i then { t with kind := .pfx }
        else { t with lastQ := t.q, bus := .instructionComplete :: t.bus, kind := .insn })) ∧
    (∀ x, exec i (s.fetched i) = .refused x → step s = .refused x)

/-- What fetching an instruction does before it executes: PC passes its bytes, R counts its M1 fetches, the prefix latch is
cleared, and at the first byte of a logical instruction Q and pendingEI are cleared; registers and memory stay. The requests are
one M1 fetch for each opcode byte and one read for each operand byte, in the order of their addresses, the call of a consulted
breakpoint hook coming after the first fetch (20_memory.md R72, R87, 60_exceptions.md R620); that call uses up an answer
only where the hook is an oracle (log entry 5). -/
def Obligations.FetchEffect : Prop :=
  ∀ (s : State) (i : Instr),
    let hook := if s.hookConsulted then [BusEvent.breakpointHook s.pc (s.peek s.pc)] else []
    let requests := [.fetchOpcode s.pc] ++ hook ++ requestsFrom .fetchOpcode (s.pc + 1#16) (i.m1Fetches - 1) ++
      requestsFrom .readByte (s.pc + BitVec.ofNat 16 i.m1Fetches) (i.body.length - i.m1Fetches)
    let draws := s.hookConsulted && s.params.breakpointHook == .oracle
    (s.fetched i).bus = requests.reverse ++ s.bus ∧
    (s.fetched i).hookAnswers = (if draws then s.hookAnswers.tail else s.hookAnswers) ∧
    (s.fetched i).draws = (if draws then s.draws + 1 else s.draws) ∧
    (s.fetched i).pc = s.pc + BitVec.ofNat 16 i.body.length ∧
    (s.fetched i).r = refreshed s.r i.m1Fetches ∧
    (s.fetched i).pfx = none ∧
    (s.fetched i).q = (s.pfx.isSome && s.q) ∧
    (s.fetched i).pendingEI = (s.pfx.isSome && s.pendingEI) ∧
    (s.fetched i).f = s.f ∧ (s.fetched i).mem = s.mem ∧
    s.keptBut [.r, .pfx, .pendingEI, .lastLdAIR]
      { s.fetched i with hookAnswers := s.hookAnswers, draws := s.draws }

/-- At a boundary: reset before NMI before the maskable interrupt before a halt step before the next instruction
(60_exceptions.md R605, R606); inside a prefix chain none of them is sampled, whatever the inputs hold (R602). -/
def Obligations.StepPriority : Prop :=
  ∀ (s : State),
    (s.pfx = none → s.resetRequest = true → step s = .next (s.applyReset.setKind .reset)) ∧
    (s.pfx = none → s.resetRequest = false → s.nmiPending = true →
      step s = onNext s.serviceNmi fun t => t.setKind .nmi) ∧
    (s.pfx = none → s.resetRequest = false → s.nmiPending = false →
      s.iff1 = true → s.pendingEI = false → s.intLine = true → step s = onNext s.serviceInt fun t => t.setKind .int) ∧
    (s.pfx = none → s.resetRequest = false → s.nmiPending = false →
      ¬(s.iff1 = true ∧ s.pendingEI = false ∧ s.intLine = true) →
      (s.halted = true → step s = .next (s.haltStep.setKind .halt)) ∧
      (s.halted = false → step s = s.instructionStep)) ∧
    (s.pfx ≠ none → step s = s.instructionStep)

/-- A breakpoint at PC, at the first byte of a logical instruction: the byte that the hook answers is decoded in place of the
one in memory, the bytes after it come from PC + 1 on, and memory stays (60_exceptions.md R620). It holds whatever the hook
answers: by default the byte in memory (00_scope.md R8), so that the instruction there runs; where the hook is an oracle, the next
byte of `hookAnswers`, or the free value of log entry 4. -/
def Obligations.BreakpointHook : Prop :=
  ∀ (s : State) (i : Instr),
    s.pfx = none → s.resetRequest = false → s.nmiPending = false → s.takesInt = false → s.halted = false →
    s.breakpoints.contains s.pc.toNat = true →
    decodeAt none (s.hookAnswer s.pc (s.peek s.pc)) (s.peek (s.pc + 1#16)) (s.peek (s.pc + 2#16)) (s.peek (s.pc + 3#16)) = i →
    step s = onNext (exec i (s.fetched i)) (fun t => t.finish i) ∧
    (s.fetched i).mem = s.mem ∧
    (s.params.breakpointHook = .identity →
      s.hookAnswer s.pc (s.peek s.pc) = s.peek s.pc ∧
      decodeAt none (s.peek s.pc) (s.peek (s.pc + 1#16)) (s.peek (s.pc + 2#16)) (s.peek (s.pc + 3#16)) = i) ∧
    (∀ b bs, s.params.breakpointHook = .oracle → s.hookAnswers = b :: bs →
      s.hookAnswer s.pc (s.peek s.pc) = b ∧ (s.fetched i).hookAnswers = bs) ∧
    (s.hookAnswer s.pc (s.peek s.pc) = 0x00#8 →
      ∃ t, step s = .next t ∧ t.pc = s.pc + 1#16 ∧ t.r = refreshed s.r 1 ∧ t.f = s.f ∧ t.mem = s.mem ∧
        s.keptBut [.r, .pendingEI, .lastLdAIR] { t with
          hookAnswers := s.hookAnswers, draws := s.draws, kind := s.kind, lastQ := s.lastQ })

/-- Wherever the core stands, a step answers a next state, but for the two refusals that the spec itself asks for: it never
faults (60_exceptions.md R600, R601), and it refuses only an IM 0 interrupt whose byte is no RST (R609) and a repeating block
instruction under BLOCK_REPEAT_XY = pc_high (46_block.md R456). -/
def Obligations.StepNeverStopsElsewhere : Prop :=
  ∀ s : State,
    (∃ t, step s = .next t) ∨
    (step s = .refused .im0NonRst ∧ s.takesInt = true ∧ s.im = .im0 ∧ s.ackAnswer &&& 0xC7#8 ≠ 0xC7#8) ∨
    (step s = .refused .blockRepeatPcHigh ∧ s.params.blockRepeatXY = .pcHigh ∧ repeats s.decoded = true)

/-- Every instruction, every constructor of `Instr`, completes from every state: under the default BLOCK_REPEAT_XY its meaning
answers a next state (30_encoding.md R122, 60_exceptions.md R616). -/
def Obligations.EveryInstructionCompletes : Prop :=
  ∀ (i : Instr) (s : State), s.params.blockRepeatXY = .asSingle → ∃ t, exec i s = .next t

/-! ### Frames -/

/-- Every instruction leaves every register and control bit as it was, but for those its rule writes, which `writes` lists (F, Q
and memory are the subject of the statements below); and PC too, unless its rule transfers control (10_state.md R25). -/
def Obligations.FrameOfRegisters : Prop :=
  ∀ (i : Instr) (s t : State), exec i s = .next t →
    s.keptBut (writes i) t ∧ (transfersControl i.resolve = false → t.pc = s.pc)

/-- Every instruction leaves every flag as it was, but for those its rule writes (10_state.md R29), which `flagsChanged`
gives as a mask of F. -/
def Obligations.FrameOfFlags : Prop :=
  ∀ (i : Instr) (s t : State), exec i s = .next t →
    t.f &&& ~~~(flagsChanged i) = s.f &&& ~~~(flagsChanged i)

/-- Every instruction leaves every byte of memory as it was, but for those at the addresses it stores to, which `storesTo`
computes from the state the meaning starts in; an instruction for which it gives none stores nothing. -/
def Obligations.FrameOfMemory : Prop :=
  ∀ (i : Instr) (s t : State) (x : Word), exec i s = .next t → x ∉ storesTo i s → t.peek x = s.peek x

/-- Q is set by exactly the instructions whose rule lists a flag as written (and, under Q_ON_POP_EX_AF, by POP AF and
EX AF,AF'), and left alone by the others; lastQ after a step is Q when a logical instruction ended, 0 after an interrupt entry,
a halt step or a reset, and as before after a prefix step (10_state.md R45). -/
def Obligations.QAndLastQ : Prop :=
  (∀ (i : Instr) (s t : State), exec i s = .next t → t.q = (s.q || setsQ s.params i)) ∧
  (∀ s t : State, step s = .next t →
    (t.kind = .insn → t.lastQ = t.q) ∧
    (t.kind = .pfx → t.lastQ = s.lastQ) ∧
    (t.kind ≠ .insn → t.kind ≠ .pfx → t.lastQ = false))

/-! ### Invariants and rules of the whole machine -/

/-- Every step keeps the invariant of Safety.lean: memory and breakpoint set in canonical form, a clean prefix chain, the EI
window open only with IFF2 set, IFF1 never set without IFF2. -/
def Obligations.StepKeepsInv : Prop := ∀ s t : State, Inv s → step s = .next t → Inv t

/-- The reset state meets the invariant. -/
def Obligations.ResetMeetsInv : Prop := Inv State.reset

/-- Only the host changes intLine, the breakpoint set and the parameters, and only it sets nmiPending and resetRequest: an NMI
is consumed by the step that services it (or lost in a reset), a reset request by the reset step. -/
def Obligations.StepKeepsHostInputs : Prop :=
  ∀ s t : State, step s = .next t →
    t.intLine = s.intLine ∧ t.breakpoints = s.breakpoints ∧ t.params = s.params ∧
    t.nmiPending = (s.nmiPending && t.kind != .nmi && t.kind != .reset) ∧
    t.resetRequest = (s.resetRequest && t.kind != .reset)

/-- The requests of a step are added in front of those before it; instruction-complete is called once by each step that ends a
logical instruction and by no other (60_exceptions.md R621); a reset step issues nothing (70_reset_and_hazards.md R702). -/
def Obligations.BusRequestsOfAStep : Prop :=
  ∀ s t : State, step s = .next t →
    (∃ new, t.bus = new ++ s.bus) ∧
    t.bus.count .instructionComplete = s.bus.count .instructionComplete + (if t.kind = .insn then 1 else 0) ∧
    (t.kind = .reset → t.bus = s.bus)

/-- R counts the M1 fetches: each instruction or prefix step adds its M1 fetches to R[6:0] and holds R[7], unless it is LD R,A;
a halt step and each interrupt entry add one; reset clears it (10_state.md R35). -/
def Obligations.RefreshRegisterCounts : Prop :=
  ∀ s t : State, step s = .next t →
    (t.kind = .reset → t.r = 0x00#8) ∧
    (t.kind = .nmi ∨ t.kind = .int ∨ t.kind = .halt → t.r = refreshed s.r 1) ∧
    (t.kind = .insn ∨ t.kind = .pfx →
      (s.decoded ≠ .ldRA → t.r = refreshed s.r s.decoded.m1Fetches) ∧ (s.decoded = .ldRA → t.r = s.a))

/-- The EI window (60_exceptions.md R614): after a step that ran EI, and after no other, pendingEI stands, so the maskable
interrupt is not accepted at the boundary after EI; the next logical instruction closes the window unless it is an EI. -/
def Obligations.EiWindow : Prop :=
  ∀ s t : State, Inv s → step s = .next t → t.kind = .insn →
    (t.pendingEI = true ↔ s.decoded = .ei) ∧ (s.decoded = .ei → t.takesInt = false ∧ t.iff1 = true ∧ t.iff2 = true)

/-- The Halted state is entered only by HALT and left only by a reset, an NMI entry or a maskable-interrupt entry; a halt step
discards the byte it fetches, counts R, clears lastQ and leaves PC at the HALT (60_exceptions.md R603, R624, 10_state.md
R39; lastLdAIR and kind are the model's own, log entries 9 and 8). -/
def Obligations.HaltedEnteredAndLeft : Prop :=
  (∀ s : State, s.pfx = none → s.resetRequest = false → s.nmiPending = false → s.takesInt = false → s.halted = true →
    step s = .next { s with
      bus := .fetchOpcode s.pc :: s.bus, r := refreshed s.r 1, lastQ := false, lastLdAIR := false, kind := .halt }) ∧
  (∀ s t : State, Inv s → step s = .next t →
    (t.kind = .reset ∨ t.kind = .nmi ∨ t.kind = .int → t.halted = false) ∧
    (t.kind = .halt → s.halted = true ∧ t.halted = true ∧ t.pc = s.pc) ∧
    (t.kind = .insn ∨ t.kind = .pfx → (t.halted = true ↔ s.decoded = .halt)))

/-! ### Memory and registers -/

/-- A store is seen by every later read of the same address and by no read of another; it keeps the canonical form, and two
memories in canonical form that read the same everywhere are the same list (20_memory.md R84). -/
def Obligations.MemoryReadsWhatWasWritten : Prop :=
  (∀ (m : Memory) (x y : Nat) (v : Byte), m.wf = true → (m.write x v).read y = if y = x then v else m.read y) ∧
  (∀ (m : Memory) (x : Word) (v : Byte), m.wf = true → (m.write x.toNat v).wf = true) ∧
  (∀ m n : Memory, m.wf = true → n.wf = true → (∀ x, m.read x = n.read x) → m = n)

/-- Pair and byte views are one store: writing a pair writes both halves, writing a half changes only that half
(10_state.md R21, R23); so it is for AF, for the halves of IX and IY, and for every operand field that names them. -/
def Obligations.RegisterViews : Prop :=
  (∀ v : Word, join (hi v) (lo v) = v) ∧
  (∀ h l : Byte, hi (join h l) = h ∧ lo (join h l) = l ∧ (join h l).toNat = 256 * h.toNat + l.toNat) ∧
  (∀ (s : State) (p p' : Rp) (v : Word), (s.setRp p v).rp p' = if p' = p then v else s.rp p') ∧
  (∀ (s : State) (r r' : Reg8) (v : Byte), (s.setReg8 r v).reg8 r' = if r' = r then v else s.reg8 r') ∧
  (∀ (s : State) (x x' : Idx) (h h' : Half) (v : Byte),
    (s.setIdxHalf x h v).idxHalf x' h' = if x' = x ∧ h' = h then v else s.idxHalf x' h') ∧
  (∀ (s : State) (p p' : Rp2) (v : Word), (s.setRp2 p v).rp2 p' = if p' = p then v else s.rp2 p') ∧
  (∀ (s : State) (x : Idx) (u u' : RegX) (v : Byte), (s.setRegX x u v).regX x u' = if u' = u then v else s.regX x u') ∧
  (∀ (s : State) (r r' : Reg8) (v : Byte),
    s.copyTo none v = s ∧ (s.copyTo (some r) v).reg8 r' = if r' = r then v else s.reg8 r') ∧
  (∀ s : State, s.bc = join s.b s.c ∧ s.de = join s.d s.e ∧ s.hl = join s.h s.l ∧ s.af = join s.a s.f ∧
    s.rp .bc = s.bc ∧ s.rp .de = s.de ∧ s.rp .hl = s.hl ∧ s.rp .sp = s.sp ∧
    s.rp2 .bc = s.bc ∧ s.rp2 .de = s.de ∧ s.rp2 .hl = s.hl ∧ s.rp2 .af = s.af ∧
    s.bcDe .bc = s.bc ∧ s.bcDe .de = s.de) ∧
  (∀ (s : State) (x : Idx), s.rpX x .bc = s.bc ∧ s.rpX x .de = s.de ∧ s.rpX x .ix = s.idx x ∧ s.rpX x .sp = s.sp ∧
    s.idx x = join (s.idxHalf x .high) (s.idxHalf x .low) ∧
    s.regX x .a = s.a ∧ s.regX x .b = s.b ∧ s.regX x .c = s.c ∧ s.regX x .d = s.d ∧ s.regX x .e = s.e ∧
    s.regX x .xh = s.idxHalf x .high ∧ s.regX x .xl = s.idxHalf x .low) ∧
  (∀ s : State, s.idx .ix = s.ix ∧ s.idx .iy = s.iy) ∧
  (∀ (s : State) (v : Word), s.setAf v = { s with a := hi v, f := lo v }) ∧
  (∀ (s : State) (v : Word), s.setBc v = (s.setReg8 .b (hi v)).setReg8 .c (lo v) ∧
    s.setDe v = (s.setReg8 .d (hi v)).setReg8 .e (lo v) ∧ s.setHl v = (s.setReg8 .h (hi v)).setReg8 .l (lo v))

/-- What the host does between steps (60_exceptions.md R623). A get reads what a set wrote. A set changes the register or flag
bit it names and nothing else: a set of a pair changes its two halves, as two sets of bytes do (10_state.md R21), and no other
register; a set of a byte or of a flag bit changes no other byte register, nor SP or PC; and no set touches memory, MEMPTR, Q,
the control bits or the host's own inputs (D30). Each of assert NMI, set INT line, request reset, enable and disable breakpoint
(R604, R605, R615, R620) sets its own input and nothing else; a breakpoint reads back at its address, those elsewhere stay, and
the set stays in canonical form (10_state.md R47). All of them keep the invariant of Safety.lean. -/
def Obligations.HostOperations : Prop :=
  (∀ (s : State) (k k' : ByteReg) (v : Byte),
    (s.setByteReg k v).getByteReg k' = if k' = k then v else s.getByteReg k') ∧
  (∀ (s : State) (j j' : WordReg) (w : Word),
    (s.setWordReg j w).getWordReg j' = if j' = j then w else s.getWordReg j') ∧
  (∀ (s : State) (j : WordReg) (k : ByteReg) (w : Word), k ∉ j.halves →
    (s.setWordReg j w).getByteReg k = s.getByteReg k) ∧
  (∀ (s : State) (j : WordReg) (kh kl : ByteReg) (w : Word), j.halves = [kh, kl] →
    s.setWordReg j w = (s.setByteReg kh (hi w)).setByteReg kl (lo w) ∧
    s.getWordReg j = join (s.getByteReg kh) (s.getByteReg kl)) ∧
  (∀ (s : State) (g g' : FlagBit) (b : Bool), (s.setFlagBit g b).getFlagBit g' = if g' = g then b else s.getFlagBit g') ∧
  (∀ s : State, s.getFlagBit .c = s.f.getLsbD 0 ∧ s.getFlagBit .n = s.f.getLsbD 1 ∧ s.getFlagBit .pv = s.f.getLsbD 2 ∧
    s.getFlagBit .x = s.f.getLsbD 3 ∧ s.getFlagBit .h = s.f.getLsbD 4 ∧ s.getFlagBit .y = s.f.getLsbD 5 ∧
    s.getFlagBit .z = s.f.getLsbD 6 ∧ s.getFlagBit .s = s.f.getLsbD 7) ∧
  (∀ (s : State) (k : ByteReg) (g : FlagBit) (b : Bool), k ≠ .f → (s.setFlagBit g b).getByteReg k = s.getByteReg k) ∧
  (∀ (s : State) (k : ByteReg) (g : FlagBit) (v : Byte) (b : Bool),
    ∀ t ∈ [s.setByteReg k v, s.setFlagBit g b], t.sp = s.sp ∧ t.pc = s.pc) ∧
  (∀ (s : State) (k : ByteReg) (j : WordReg) (g : FlagBit) (v : Byte) (w : Word) (b : Bool),
    ∀ t ∈ [s.setByteReg k v, s.setWordReg j w, s.setFlagBit g b],
      s.keptBut [.a, .b, .c, .d, .e, .h, .l, .afAlt, .generalAlt, .ix, .iy, .sp, .i, .r] t ∧
      t.q = s.q ∧ t.mem = s.mem ∧ t.bus = s.bus) ∧
  (∀ (s : State) (level : Bool) (a : Word),
    s.assertNmi = { s with nmiPending := true } ∧ s.setIntLine level = { s with intLine := level } ∧
    s.requestReset = { s with resetRequest := true } ∧
    s.enableBreakpoint a = { s with breakpoints := (s.enableBreakpoint a).breakpoints } ∧
    s.disableBreakpoint a = { s with breakpoints := (s.disableBreakpoint a).breakpoints }) ∧
  (∀ (s : State) (a x : Word),
    (s.enableBreakpoint a).breakpointAt x = (if x = a then true else s.breakpointAt x) ∧
    (s.disableBreakpoint a).breakpointAt x = (if x = a then false else s.breakpointAt x)) ∧
  (∀ (s : State) (a : Word), risingFrom 0 s.breakpoints = true →
    risingFrom 0 (s.enableBreakpoint a).breakpoints = true ∧ risingFrom 0 (s.disableBreakpoint a).breakpoints = true) ∧
  (∀ (s : State) (k : ByteReg) (j : WordReg) (g : FlagBit) (v : Byte) (w a : Word) (b level : Bool), Inv s →
    ∀ t ∈ [s.setByteReg k v, s.setWordReg j w, s.setFlagBit g b, s.assertNmi, s.setIntLine level, s.requestReset,
      s.enableBreakpoint a, s.disableBreakpoint a], Inv t)

/-! ### Interrupts, halt, reset -/

/-- NMI entry, whole (60_exceptions.md R607): the pushed PC is the next instruction's, past the HALT when halted; IFF1 is
cleared and IFF2 kept; PC and MEMPTR become 0x0066. (lastLdAIR and kind, here and below, are the model's own fields, log
entries 9 and 8.) -/
def Obligations.NmiEntry : Prop :=
  ∀ s : State, s.pfx = none → s.resetRequest = false → s.nmiPending = true →
    let pc := if s.halted then s.pc + 1#16 else s.pc
    step s = .next { ((s.store (s.sp - 1#16) (hi pc)).store (s.sp - 2#16) (lo pc)) with
      nmiPending := false, halted := false, r := refreshed s.r 1, iff1 := false, sp := s.sp - 2#16, pc := 0x0066#16,
      memptr := 0x0066#16, lastQ := false, lastLdAIR := false, kind := .nmi }

/-- Maskable-interrupt entry in mode 1, whole (60_exceptions.md R608, R610). The F named is the old one, but under
LDAIR_PV_QUIRK right after LD A,I or LD A,R, where PV is cleared (D15; log entry 9). -/
def Obligations.Im1Entry : Prop :=
  ∀ s : State, s.pfx = none → s.resetRequest = false → s.nmiPending = false → s.iff1 = true → s.pendingEI = false →
    s.intLine = true → s.im = .im1 →
    let pc := if s.halted then s.pc + 1#16 else s.pc
    step s = .next { ((s.store (s.sp - 1#16) (hi pc)).store (s.sp - 2#16) (lo pc)) with
      halted := false, r := refreshed s.r 1, iff1 := false, iff2 := false, sp := s.sp - 2#16, pc := 0x0038#16,
      memptr := 0x0038#16, lastQ := false, lastLdAIR := false, kind := .int,
      f := if s.params.ldairPvQuirk = true ∧ s.lastLdAIR = true then s.f &&& 0xFB#8 else s.f }

/-- Maskable-interrupt entry in mode 0 (60_exceptions.md R609): for whatever byte int-ack answers, an RST byte pushes PC once
and goes to `b & 0x38`; any other byte is refused, the stop the spec names. -/
def Obligations.Im0Entry : Prop :=
  ∀ s : State, s.pfx = none → s.resetRequest = false → s.nmiPending = false → s.iff1 = true → s.pendingEI = false →
    s.intLine = true → s.im = .im0 →
    let pc := if s.halted then s.pc + 1#16 else s.pc
    let target := join 0x00#8 (s.ackAnswer &&& 0x38#8)
    (s.ackAnswer &&& 0xC7#8 = 0xC7#8 →
      step s = .next { ((s.afterIntAck.store (s.sp - 1#16) (hi pc)).store (s.sp - 2#16) (lo pc)) with
        halted := false, r := refreshed s.r 1, iff1 := false, iff2 := false, sp := s.sp - 2#16, pc := target,
        memptr := target, lastQ := false, lastLdAIR := false, kind := .int,
        f := if s.params.ldairPvQuirk = true ∧ s.lastLdAIR = true then s.f &&& 0xFB#8 else s.f }) ∧
    (s.ackAnswer &&& 0xC7#8 ≠ 0xC7#8 → step s = .refused .im0NonRst)

/-- Maskable-interrupt entry in mode 2 (60_exceptions.md R611): PC is pushed, then the target is read at the address I:b, low
byte first, for whatever byte b int-ack answers, bit 0 included. -/
def Obligations.Im2Entry : Prop :=
  ∀ s : State, s.pfx = none → s.resetRequest = false → s.nmiPending = false → s.iff1 = true → s.pendingEI = false →
    s.intLine = true → s.im = .im2 →
    let pc := if s.halted then s.pc + 1#16 else s.pc
    let table := join s.i s.ackAnswer
    let pushed := (s.afterIntAck.store (s.sp - 1#16) (hi pc)).store (s.sp - 2#16) (lo pc)
    let target := join (pushed.peek (table + 1#16)) (pushed.peek table)
    step s = .next { ((pushed.emit (.readByte table)).emit (.readByte (table + 1#16))) with
      halted := false, r := refreshed s.r 1, iff1 := false, iff2 := false, sp := s.sp - 2#16, pc := target,
      memptr := target, lastQ := false, lastLdAIR := false, kind := .int,
      f := if s.params.ldairPvQuirk = true ∧ s.lastLdAIR = true then s.f &&& 0xFB#8 else s.f }

/-- The reset step (70_reset_and_hazards.md R701, R702): every register at its reset value; memory, intLine, the breakpoint set
and the record of requests as before. -/
def Obligations.ResetStep : Prop :=
  ∀ s : State, s.pfx = none → s.resetRequest = true →
    ∃ t, step s = .next t ∧
      t.af = 0xFFFF#16 ∧ t.bc = 0xFFFF#16 ∧ t.de = 0xFFFF#16 ∧ t.hl = 0xFFFF#16 ∧
      join t.aAlt t.fAlt = 0xFFFF#16 ∧ join t.bAlt t.cAlt = 0xFFFF#16 ∧ join t.dAlt t.eAlt = 0xFFFF#16 ∧
      join t.hAlt t.lAlt = 0xFFFF#16 ∧
      t.ix = 0xFFFF#16 ∧ t.iy = 0xFFFF#16 ∧ t.sp = 0xFFFF#16 ∧ t.pc = 0x0000#16 ∧ t.i = 0x00#8 ∧ t.r = 0x00#8 ∧
      t.memptr = 0xFFFF#16 ∧ t.iff1 = false ∧ t.iff2 = false ∧ t.im = .im0 ∧ t.pendingEI = false ∧ t.halted = false ∧
      t.nmiPending = false ∧ t.resetRequest = false ∧ t.q = false ∧ t.lastQ = false ∧ t.pfx = none ∧
      t.mem = s.mem ∧ t.intLine = s.intLine ∧ t.breakpoints = s.breakpoints ∧ t.bus = s.bus

/-- The state right after construction has the reset values of 10_state.md R50, intLine low, no breakpoint; memory, the answer
lists and the record are the model's own (log entries 1, 5, 7) and no clause is about them. -/
def Obligations.ResetState : Prop :=
  State.reset.af = 0xFFFF#16 ∧ State.reset.bc = 0xFFFF#16 ∧ State.reset.de = 0xFFFF#16 ∧ State.reset.hl = 0xFFFF#16 ∧
  State.reset.ix = 0xFFFF#16 ∧ State.reset.iy = 0xFFFF#16 ∧ State.reset.sp = 0xFFFF#16 ∧ State.reset.pc = 0x0000#16 ∧
  join State.reset.aAlt State.reset.fAlt = 0xFFFF#16 ∧ join State.reset.bAlt State.reset.cAlt = 0xFFFF#16 ∧
  join State.reset.dAlt State.reset.eAlt = 0xFFFF#16 ∧ join State.reset.hAlt State.reset.lAlt = 0xFFFF#16 ∧
  State.reset.i = 0x00#8 ∧ State.reset.r = 0x00#8 ∧ State.reset.memptr = 0xFFFF#16 ∧
  State.reset.iff1 = false ∧ State.reset.iff2 = false ∧ State.reset.im = .im0 ∧ State.reset.pendingEI = false ∧
  State.reset.halted = false ∧ State.reset.nmiPending = false ∧ State.reset.resetRequest = false ∧
  State.reset.q = false ∧ State.reset.lastQ = false ∧ State.reset.pfx = none ∧ State.reset.intLine = false ∧
  State.reset.breakpoints = []

/-- An NMI handler that returns with RETN at once resumes where the NMI came in: PC, SP and MEMPTR are those of the interrupted
instruction's place, past the HALT when the core was halted, and the core is no longer halted; both flip-flops are IFF2, which
the entry kept, so where IFF1 and IFF2 agreed before, both are back (60_exceptions.md R607, R613, 48_cpu_control.md R501). -/
def Obligations.RetnUndoesNmiEntry : Prop :=
  ∀ (s t : State) (y : BitVec 3) (pc : Word), s.mem.wf = true → s.serviceNmi = .next t →
    let resume := if s.halted then s.pc + 1#16 else s.pc
    ∃ u, exec (.retn y) { t with pc := pc } = .next u ∧ u.pc = resume ∧ u.sp = s.sp ∧ u.memptr = resume ∧
      u.halted = false ∧ u.iff1 = s.iff2 ∧ u.iff2 = s.iff2 ∧ (s.iff1 = s.iff2 → u.iff1 = s.iff1 ∧ u.iff2 = s.iff2)

/-! ### 8-bit loads -/

/-- LD between registers and LD of an immediate (40_load8.md R200, R201, R208, R209): `ldRR`, `ldRN`, `ldRRX`, `ldXhN`. -/
def Obligations.RegisterLoads : Prop :=
  ∀ (s : State) (r r' : Reg8) (n : Byte) (x : Idx) (u u' : RegX) (h : Half),
    (Instr.ldRR r r').encode = [opByte (0x40 + 8 * r.field.toNat + r'.field.toNat)] ∧
    exec (.ldRR r r') s = .next (s.setReg8 r (s.reg8 r')) ∧
    (Instr.ldRN r n).encode = [opByte (0x06 + 8 * r.field.toNat), n] ∧
    exec (.ldRN r n) s = .next (s.setReg8 r n) ∧
    (Instr.ldRRX x u u').encode = [x.byte, opByte (0x40 + 8 * u.field.toNat + u'.field.toNat)] ∧
    exec (.ldRRX x u u') s = .next (s.setRegX x u (s.regX x u')) ∧
    (Instr.ldXhN x h n).encode = [x.byte, if h = .high then 0x26#8 else 0x2E#8, n] ∧
    exec (.ldXhN x h n) s = .next (s.setIdxHalf x h n)

/-- Loads of a register from memory (40_load8.md R202, R205, R210, R212) with the address of (IX+d) (30_encoding.md R112):
`ldRM`, `ldRXd`, `ldAPair`, `ldANn`. -/
def Obligations.MemoryLoads : Prop :=
  ∀ (s : State) (r : Reg8) (x : Idx) (d : Byte) (p : BcDe) (nn : Word),
    ((s.ea x d).toNat : Int) = ((s.idx x).toNat + d.toInt) % 65536 ∧
    (Instr.ldRM r).encode = [opByte (0x46 + 8 * r.field.toNat)] ∧
    exec (.ldRM r) s = .next ((s.emit (.readByte s.hl)).setReg8 r (s.peek s.hl)) ∧
    (Instr.ldRXd x r d).encode = [x.byte, opByte (0x46 + 8 * r.field.toNat), d] ∧
    exec (.ldRXd x r d) s =
      .next (({ s with memptr := s.ea x d }.emit (.readByte (s.ea x d))).setReg8 r (s.peek (s.ea x d))) ∧
    (Instr.ldAPair p).encode = [if p = .bc then 0x0A#8 else 0x1A#8] ∧
    exec (.ldAPair p) s =
      .next { s.emit (.readByte (s.bcDe p)) with a := s.peek (s.bcDe p), memptr := s.bcDe p + 1#16 } ∧
    (Instr.ldANn nn).encode = [0x3A#8, lo nn, hi nn] ∧
    exec (.ldANn nn) s = .next { s.emit (.readByte nn) with a := s.peek nn, memptr := nn + 1#16 }

/-- Stores of a byte (40_load8.md R203, R204, R206, R207, R211, R213): `ldMR`, `ldMN`, `ldXdR`, `ldXdN`, `ldPairA`, `ldNnA`. -/
def Obligations.MemoryStores : Prop :=
  ∀ (s : State) (r : Reg8) (n : Byte) (x : Idx) (d : Byte) (p : BcDe) (nn : Word),
    (Instr.ldMR r).encode = [opByte (0x70 + r.field.toNat)] ∧
    exec (.ldMR r) s = .next (s.store s.hl (s.reg8 r)) ∧
    (Instr.ldMN n).encode = [0x36#8, n] ∧
    exec (.ldMN n) s = .next (s.store s.hl n) ∧
    (Instr.ldXdR x r d).encode = [x.byte, opByte (0x70 + r.field.toNat), d] ∧
    exec (.ldXdR x r d) s = .next ({ s with memptr := s.ea x d }.store (s.ea x d) (s.reg8 r)) ∧
    (Instr.ldXdN x d n).encode = [x.byte, 0x36#8, d, n] ∧
    exec (.ldXdN x d n) s = .next ({ s with memptr := s.ea x d }.store (s.ea x d) n) ∧
    (Instr.ldPairA p).encode = [if p = .bc then 0x02#8 else 0x12#8] ∧
    exec (.ldPairA p) s = .next { s.store (s.bcDe p) s.a with memptr := join s.a (lo (s.bcDe p + 1#16)) } ∧
    (Instr.ldNnA nn).encode = [0x32#8, lo nn, hi nn] ∧
    exec (.ldNnA nn) s = .next { s.store nn s.a with memptr := join s.a (lo (nn + 1#16)) }

/-! ### 16-bit loads, stack, exchanges -/

/-- 16-bit loads of an immediate, of SP, and from memory, low byte at the lower address (41_load16_stack_exchange.md R240 to
R243, R246, R248, R249): `ldDdNn`, `ldIxNn`, `ldSpHl`, `ldSpIx`, `ldHlNn`, `ldIxMem`, `ldDdMem`. -/
def Obligations.WordLoads : Prop :=
  ∀ (s : State) (p : Rp) (x : Idx) (nn : Word),
    let read := (s.emit (.readByte nn)).emit (.readByte (nn + 1#16))
    let w := join (s.peek (nn + 1#16)) (s.peek nn)
    (Instr.ldDdNn p nn).encode = [opByte (0x01 + 16 * p.field.toNat), lo nn, hi nn] ∧
    exec (.ldDdNn p nn) s = .next (s.setRp p nn) ∧
    (Instr.ldIxNn x nn).encode = [x.byte, 0x21#8, lo nn, hi nn] ∧
    exec (.ldIxNn x nn) s = .next (s.setIdx x nn) ∧
    Instr.ldSpHl.encode = [0xF9#8] ∧ exec .ldSpHl s = .next { s with sp := s.hl } ∧
    (Instr.ldSpIx x).encode = [x.byte, 0xF9#8] ∧ exec (.ldSpIx x) s = .next { s with sp := s.idx x } ∧
    (Instr.ldHlNn nn).encode = [0x2A#8, lo nn, hi nn] ∧
    exec (.ldHlNn nn) s =
      .next { read with h := s.peek (nn + 1#16), l := s.peek nn, memptr := nn + 1#16 } ∧
    (Instr.ldIxMem x nn).encode = [x.byte, 0x2A#8, lo nn, hi nn] ∧
    exec (.ldIxMem x nn) s = .next { read.setIdx x w with memptr := nn + 1#16 } ∧
    (Instr.ldDdMem p nn).encode = [0xED#8, opByte (0x4B + 16 * p.field.toNat), lo nn, hi nn] ∧
    exec (.ldDdMem p nn) s = .next { read.setRp p w with memptr := nn + 1#16 }

/-- 16-bit stores, low byte at the lower address and first (41_load16_stack_exchange.md R244, R245, R247): `ldNnHl`, `ldNnIx`,
`ldNnDd`. -/
def Obligations.WordStores : Prop :=
  ∀ (s : State) (p : Rp) (x : Idx) (nn : Word),
    (Instr.ldNnHl nn).encode = [0x22#8, lo nn, hi nn] ∧
    exec (.ldNnHl nn) s = .next { (s.store nn s.l).store (nn + 1#16) s.h with memptr := nn + 1#16 } ∧
    (Instr.ldNnIx x nn).encode = [x.byte, 0x22#8, lo nn, hi nn] ∧
    exec (.ldNnIx x nn) s =
      .next { (s.store nn (s.idxHalf x .low)).store (nn + 1#16) (s.idxHalf x .high) with memptr := nn + 1#16 } ∧
    (Instr.ldNnDd p nn).encode = [0xED#8, opByte (0x43 + 16 * p.field.toNat), lo nn, hi nn] ∧
    exec (.ldNnDd p nn) s =
      .next { (s.store nn (lo (s.rp p))).store (nn + 1#16) (hi (s.rp p)) with memptr := nn + 1#16 }

/-- PUSH and POP (41_load16_stack_exchange.md R250 to R253, 20_memory.md R74): `pushQq`, `pushIx`, `popQq`, `popIx`. POP AF
loads F as data and sets Q only under Q_ON_POP_EX_AF. -/
def Obligations.StackResults : Prop :=
  ∀ (s : State) (p : Rp2) (x : Idx),
    let w := join (s.peek (s.sp + 1#16)) (s.peek s.sp)
    let popped := { (s.emit (.readByte s.sp)).emit (.readByte (s.sp + 1#16)) with sp := s.sp + 2#16 }
    (Instr.pushQq p).encode = [opByte (0xC5 + 16 * p.field.toNat)] ∧
    exec (.pushQq p) s =
      .next { (s.store (s.sp - 1#16) (hi (s.rp2 p))).store (s.sp - 2#16) (lo (s.rp2 p)) with sp := s.sp - 2#16 } ∧
    (Instr.pushIx x).encode = [x.byte, 0xE5#8] ∧
    exec (.pushIx x) s =
      .next { (s.store (s.sp - 1#16) (hi (s.idx x))).store (s.sp - 2#16) (lo (s.idx x)) with sp := s.sp - 2#16 } ∧
    (Instr.popQq p).encode = [opByte (0xC1 + 16 * p.field.toNat)] ∧
    exec (.popQq p) s = .next { popped.setRp2 p w with q := s.q || (p == .af && s.params.qOnPopExAF) } ∧
    (Instr.popIx x).encode = [x.byte, 0xE1#8] ∧
    exec (.popIx x) s = .next (popped.setIdx x w)

/-- What is pushed is popped: POP after PUSH of the same pair restores the pair and SP, in canonical memory
(20_memory.md R74). -/
def Obligations.PopUndoesPush : Prop :=
  ∀ (s t : State) (p : Rp2), s.mem.wf = true → exec (.pushQq p) s = .next t →
    ∃ u, exec (.popQq p) t = .next u ∧ u.rp2 p = s.rp2 p ∧ u.sp = s.sp ∧ u.mem = t.mem

/-- The exchanges (41_load16_stack_exchange.md R254 to R258): `exDeHl`, `exAfAf`, `exx`, `exSpHl`, `exSpIx`. -/
def Obligations.ExchangeResults : Prop :=
  ∀ (s : State) (x : Idx),
    let read := (s.emit (.readByte s.sp)).emit (.readByte (s.sp + 1#16))
    let w := join (s.peek (s.sp + 1#16)) (s.peek s.sp)
    Instr.exDeHl.encode = [0xEB#8] ∧
    exec .exDeHl s = .next { s with d := s.h, e := s.l, h := s.d, l := s.e } ∧
    Instr.exAfAf.encode = [0x08#8] ∧
    exec .exAfAf s = .next { s with
      a := s.aAlt, f := s.fAlt, aAlt := s.a, fAlt := s.f, q := s.q || s.params.qOnPopExAF } ∧
    Instr.exx.encode = [0xD9#8] ∧
    exec .exx s = .next { s with
      b := s.bAlt, c := s.cAlt, d := s.dAlt, e := s.eAlt, h := s.hAlt, l := s.lAlt,
      bAlt := s.b, cAlt := s.c, dAlt := s.d, eAlt := s.e, hAlt := s.h, lAlt := s.l } ∧
    Instr.exSpHl.encode = [0xE3#8] ∧
    exec .exSpHl s = .next { (read.store (s.sp + 1#16) s.h).store s.sp s.l with
      h := s.peek (s.sp + 1#16), l := s.peek s.sp, memptr := w } ∧
    (Instr.exSpIx x).encode = [x.byte, 0xE3#8] ∧
    exec (.exSpIx x) s =
      .next { ((read.store (s.sp + 1#16) (s.idxHalf x .high)).store s.sp (s.idxHalf x .low)).setIdx x w with memptr := w }

/-! ### 8-bit arithmetic and logic -/

/-- ADD A,v and ADC A,v in every operand form (42_alu8.md R280, R281, R282), the flags by exact arithmetic: `addForm`,
`adcForm`. -/
def Obligations.AdditionResults : Prop :=
  ∀ (s : State) (src : Src),
    let v := src.value s
    let c := carryNat s.f
    (addForm src).encode = aluEncoding 0 src ∧ (adcForm src).encode = aluEncoding 1 src ∧
    (∃ res f, exec (addForm src) s = .next { src.after s with a := res, f := f, q := true } ∧
      res.toNat = (s.a.toNat + v.toNat) % 256 ∧
      flagsAre f (decide (128 ≤ res.toNat)) (res == 0#8) (res.getLsbD 5) (decide (15 < s.a.toNat % 16 + v.toNat % 16))
        (res.getLsbD 3) (overflows8 (s.a.toInt + v.toInt)) false (decide (255 < s.a.toNat + v.toNat))) ∧
    (∃ res f, exec (adcForm src) s = .next { src.after s with a := res, f := f, q := true } ∧
      res.toNat = (s.a.toNat + v.toNat + c) % 256 ∧
      flagsAre f (decide (128 ≤ res.toNat)) (res == 0#8) (res.getLsbD 5) (decide (15 < s.a.toNat % 16 + v.toNat % 16 + c))
        (res.getLsbD 3) (overflows8 (s.a.toInt + v.toInt + c)) false (decide (255 < s.a.toNat + v.toNat + c)))

/-- SUB v, SBC A,v and CP v in every operand form (42_alu8.md R280, R283, R284, R288), the flags by exact arithmetic; CP leaves A
and takes Y and X from the operand: `subForm`, `sbcForm`, `cpForm`. -/
def Obligations.SubtractionResults : Prop :=
  ∀ (s : State) (src : Src),
    let v := src.value s
    let c := carryNat s.f
    (subForm src).encode = aluEncoding 2 src ∧ (sbcForm src).encode = aluEncoding 3 src ∧
    (cpForm src).encode = aluEncoding 7 src ∧
    (∃ res f, exec (subForm src) s = .next { src.after s with a := res, f := f, q := true } ∧
      (res.toNat : Int) = ((s.a.toNat : Int) - v.toNat) % 256 ∧
      flagsAre f (decide (128 ≤ res.toNat)) (res == 0#8) (res.getLsbD 5) (decide (s.a.toNat % 16 < v.toNat % 16))
        (res.getLsbD 3) (overflows8 (s.a.toInt - v.toInt)) true (decide (s.a.toNat < v.toNat))) ∧
    (∃ res f, exec (sbcForm src) s = .next { src.after s with a := res, f := f, q := true } ∧
      (res.toNat : Int) = ((s.a.toNat : Int) - v.toNat - c) % 256 ∧
      flagsAre f (decide (128 ≤ res.toNat)) (res == 0#8) (res.getLsbD 5) (decide (s.a.toNat % 16 < v.toNat % 16 + c))
        (res.getLsbD 3) (overflows8 (s.a.toInt - v.toInt - c)) true (decide (s.a.toNat < v.toNat + c))) ∧
    (∃ f, exec (cpForm src) s = .next { src.after s with f := f, q := true } ∧
      flagsAre f (decide (128 ≤ (s.a - v).toNat)) (s.a == v) (v.getLsbD 5) (decide (s.a.toNat % 16 < v.toNat % 16))
        (v.getLsbD 3) (overflows8 (s.a.toInt - v.toInt)) true (decide (s.a.toNat < v.toNat)))

/-- AND v, XOR v and OR v in every operand form (42_alu8.md R280, R285, R286, R287): PV is the parity of the result, C and H
are clear but for the H that AND sets: `andForm`, `xorForm`, `orForm`. -/
def Obligations.LogicResults : Prop :=
  ∀ (s : State) (src : Src),
    let v := src.value s
    (andForm src).encode = aluEncoding 4 src ∧ (xorForm src).encode = aluEncoding 5 src ∧
    (orForm src).encode = aluEncoding 6 src ∧
    (∃ f, exec (andForm src) s = .next { src.after s with a := s.a &&& v, f := f, q := true } ∧
      flagsAre f (s.a &&& v).msb (s.a &&& v == 0#8) ((s.a &&& v).getLsbD 5) true ((s.a &&& v).getLsbD 3)
        (evenOnes (s.a &&& v)) false false) ∧
    (∃ f, exec (xorForm src) s = .next { src.after s with a := s.a ^^^ v, f := f, q := true } ∧
      flagsAre f (s.a ^^^ v).msb (s.a ^^^ v == 0#8) ((s.a ^^^ v).getLsbD 5) false ((s.a ^^^ v).getLsbD 3)
        (evenOnes (s.a ^^^ v)) false false) ∧
    (∃ f, exec (orForm src) s = .next { src.after s with a := s.a ||| v, f := f, q := true } ∧
      flagsAre f (s.a ||| v).msb (s.a ||| v == 0#8) ((s.a ||| v).getLsbD 5) false ((s.a ||| v).getLsbD 3)
        (evenOnes (s.a ||| v)) false false)

/-- INC and DEC of a register, a half, (HL) and (IX+d) (42_alu8.md R289 to R294): C is kept, PV is the signed overflow: `incR`,
`incXh`, `incM`, `incXd`, `decR`, `decXh`, `decM`, `decXd`. -/
def Obligations.CountByOneResults : Prop :=
  ∀ (s : State) (r : Reg8) (x : Idx) (h : Half) (d : Byte),
    let incFlags := fun (v f : Byte) =>
      flagsAre f (v + 1#8).msb (v + 1#8 == 0#8) ((v + 1#8).getLsbD 5) (v.toNat % 16 == 15) ((v + 1#8).getLsbD 3)
        (overflows8 (v.toInt + 1)) false (flagC s.f)
    let decFlags := fun (v f : Byte) =>
      flagsAre f (v - 1#8).msb (v - 1#8 == 0#8) ((v - 1#8).getLsbD 5) (v.toNat % 16 == 0) ((v - 1#8).getLsbD 3)
        (overflows8 (v.toInt - 1)) true (flagC s.f)
    (Instr.incR r).encode = [opByte (0x04 + 8 * r.field.toNat)] ∧
    (∃ f, exec (.incR r) s = .next { s.setReg8 r (s.reg8 r + 1#8) with f := f, q := true } ∧ incFlags (s.reg8 r) f) ∧
    (Instr.incXh x h).encode = [x.byte, if h = .high then 0x24#8 else 0x2C#8] ∧
    (∃ f, exec (.incXh x h) s = .next { s.setIdxHalf x h (s.idxHalf x h + 1#8) with f := f, q := true } ∧
      incFlags (s.idxHalf x h) f) ∧
    Instr.incM.encode = [0x34#8] ∧
    (∃ f, exec .incM s =
        .next { (s.emit (.readByte s.hl)).store s.hl (s.peek s.hl + 1#8) with f := f, q := true } ∧
      incFlags (s.peek s.hl) f) ∧
    (Instr.incXd x d).encode = [x.byte, 0x34#8, d] ∧
    (∃ f, exec (.incXd x d) s =
        .next { (s.emit (.readByte (s.ea x d))).store (s.ea x d) (s.peek (s.ea x d) + 1#8) with
          memptr := s.ea x d, f := f, q := true } ∧
      incFlags (s.peek (s.ea x d)) f) ∧
    (Instr.decR r).encode = [opByte (0x05 + 8 * r.field.toNat)] ∧
    (∃ f, exec (.decR r) s = .next { s.setReg8 r (s.reg8 r - 1#8) with f := f, q := true } ∧ decFlags (s.reg8 r) f) ∧
    (Instr.decXh x h).encode = [x.byte, if h = .high then 0x25#8 else 0x2D#8] ∧
    (∃ f, exec (.decXh x h) s = .next { s.setIdxHalf x h (s.idxHalf x h - 1#8) with f := f, q := true } ∧
      decFlags (s.idxHalf x h) f) ∧
    Instr.decM.encode = [0x35#8] ∧
    (∃ f, exec .decM s =
        .next { (s.emit (.readByte s.hl)).store s.hl (s.peek s.hl - 1#8) with f := f, q := true } ∧
      decFlags (s.peek s.hl) f) ∧
    (Instr.decXd x d).encode = [x.byte, 0x35#8, d] ∧
    (∃ f, exec (.decXd x d) s =
        .next { (s.emit (.readByte (s.ea x d))).store (s.ea x d) (s.peek (s.ea x d) - 1#8) with
          memptr := s.ea x d, f := f, q := true } ∧
      decFlags (s.peek (s.ea x d)) f)

/-! ### 16-bit arithmetic, accumulator and flag operations -/

/-- ADD HL,ss and ADD IX,pp (43_alu16_misc.md R320, R321): S, Z and PV are kept, H is the carry out of bit 11; INC and DEC
of a pair change the pair and nothing else, no flag either (R324 to R327): `addHlSs`, `addIxPp`, `incSs`, `decSs`, `incIx`,
`decIx`. -/
def Obligations.WordAdditionResults : Prop :=
  ∀ (s : State) (p : Rp) (x : Idx) (q : RpX),
    let flags := fun (a v : Word) (f : Byte) =>
      flagsAre f (flagS s.f) (flagZ s.f) ((a + v).getLsbD 13) (decide (4095 < a.toNat % 4096 + v.toNat % 4096))
        ((a + v).getLsbD 11) (flagPV s.f) false (decide (65535 < a.toNat + v.toNat))
    (Instr.addHlSs p).encode = [opByte (0x09 + 16 * p.field.toNat)] ∧
    (∃ f, exec (.addHlSs p) s =
        .next { s.setHl (s.hl + s.rp p) with memptr := s.hl + 1#16, f := f, q := true } ∧
      flags s.hl (s.rp p) f) ∧
    (Instr.addIxPp x q).encode = [x.byte, opByte (0x09 + 16 * q.field.toNat)] ∧
    (∃ f, exec (.addIxPp x q) s =
        .next { s.setIdx x (s.idx x + s.rpX x q) with memptr := s.idx x + 1#16, f := f, q := true } ∧
      flags (s.idx x) (s.rpX x q) f) ∧
    (Instr.incSs p).encode = [opByte (0x03 + 16 * p.field.toNat)] ∧
    exec (.incSs p) s = .next (s.setRp p (s.rp p + 1#16)) ∧
    (Instr.incIx x).encode = [x.byte, 0x23#8] ∧ exec (.incIx x) s = .next (s.setIdx x (s.idx x + 1#16)) ∧
    (Instr.decSs p).encode = [opByte (0x0B + 16 * p.field.toNat)] ∧
    exec (.decSs p) s = .next (s.setRp p (s.rp p - 1#16)) ∧
    (Instr.decIx x).encode = [x.byte, 0x2B#8] ∧ exec (.decIx x) s = .next (s.setIdx x (s.idx x - 1#16))

/-- ADC HL,ss and SBC HL,ss (43_alu16_misc.md R322, R323), the flags by exact arithmetic; Z tests all 16 bits: `adcHlSs`,
`sbcHlSs`. -/
def Obligations.WordCarryResults : Prop :=
  ∀ (s : State) (p : Rp),
    let a := s.hl
    let v := s.rp p
    let c := carryNat s.f
    (Instr.adcHlSs p).encode = [0xED#8, opByte (0x4A + 16 * p.field.toNat)] ∧
    (∃ res f, exec (.adcHlSs p) s = .next { s.setHl res with memptr := a + 1#16, f := f, q := true } ∧
      res.toNat = (a.toNat + v.toNat + c) % 65536 ∧
      flagsAre f (decide (32768 ≤ res.toNat)) (res == 0#16) (res.getLsbD 13)
        (decide (4095 < a.toNat % 4096 + v.toNat % 4096 + c)) (res.getLsbD 11) (overflows16 (a.toInt + v.toInt + c)) false
        (decide (65535 < a.toNat + v.toNat + c))) ∧
    (Instr.sbcHlSs p).encode = [0xED#8, opByte (0x42 + 16 * p.field.toNat)] ∧
    (∃ res f, exec (.sbcHlSs p) s = .next { s.setHl res with memptr := a + 1#16, f := f, q := true } ∧
      (res.toNat : Int) = ((a.toNat : Int) - v.toNat - c) % 65536 ∧
      flagsAre f (decide (32768 ≤ res.toNat)) (res == 0#16) (res.getLsbD 13)
        (decide (a.toNat % 4096 < v.toNat % 4096 + c)) (res.getLsbD 11) (overflows16 (a.toInt - v.toInt - c)) true
        (decide (a.toNat < v.toNat + c)))

/-- DAA after ADD A,v or ADC A,v, in every operand form, of two packed decimal bytes gives their decimal sum, with the decimal
carry in C (43_alu16_misc.md R328, 42_alu8.md R281, R282): A and v hold the decimal digits x1 x0 and y1 y0; ADC adds the old
C: `addForm`, `adcForm`, `daa`. -/
def Obligations.DaaMakesDecimalAddition : Prop :=
  ∀ (s : State) (src : Src) (x1 x0 y1 y0 : Nat), x1 < 10 → x0 < 10 → y1 < 10 → y0 < 10 →
    s.a.toNat = 16 * x1 + x0 → (src.value s).toNat = 16 * y1 + y0 →
    let decimal := fun (sum : Nat) (u : State) =>
      u.a.toNat = 16 * (sum / 10 % 10) + sum % 10 ∧ flagC u.f = decide (99 < sum)
    (∃ t u, exec (addForm src) s = .next t ∧ exec .daa t = .next u ∧ decimal (10 * x1 + x0 + (10 * y1 + y0)) u) ∧
    (∃ t u, exec (adcForm src) s = .next t ∧ exec .daa t = .next u ∧
      decimal (10 * x1 + x0 + (10 * y1 + y0) + carryNat s.f) u)

/-- DAA on every A and F (43_alu16_misc.md R328), CPL, NEG (all eight encodings), SCF and CCF (R329 to R332); SCF and CCF take
Y and X from A, and from the old F too unless the previous instruction wrote F: `daa`, `cpl`, `neg`, `scf`, `ccf`. -/
def Obligations.AccumulatorAndFlagResults : Prop :=
  ∀ (s : State) (y : BitVec 3),
    let fromA := fun k => s.a.getLsbD k || (!s.lastQ && s.f.getLsbD k)
    let low := s.a.toNat % 16
    let adjustLow := flagH s.f || decide (9 < low)
    let carry := flagC s.f || decide (0x99 < s.a.toNat)
    let amount := (if adjustLow then 0x06 else 0) + (if carry then 0x60 else 0)
    Instr.daa.encode = [0x27#8] ∧
    (∃ res f, exec .daa s = .next { s with a := res, f := f, q := true } ∧
      (res.toNat : Int) = ((s.a.toNat : Int) + (if flagN s.f then -amount else amount)) % 256 ∧
      flagsAre f res.msb (res == 0#8) (res.getLsbD 5)
        (if flagN s.f then flagH s.f && decide (low < 6) else decide (9 < low)) (res.getLsbD 3) (evenOnes res) (flagN s.f)
        carry) ∧
    Instr.cpl.encode = [0x2F#8] ∧
    (∃ f, exec .cpl s = .next { s with a := ~~~s.a, f := f, q := true } ∧
      flagsAre f (flagS s.f) (flagZ s.f) (!s.a.getLsbD 5) true (!s.a.getLsbD 3) (flagPV s.f) true (flagC s.f)) ∧
    (Instr.neg y).encode = [0xED#8, opByte (0x44 + 8 * y.toNat)] ∧
    (∃ f, exec (.neg y) s = .next { s with a := -s.a, f := f, q := true } ∧
      flagsAre f (-s.a).msb (s.a == 0#8) ((-s.a).getLsbD 5) (s.a.toNat % 16 != 0) ((-s.a).getLsbD 3) (s.a == 0x80#8) true
        (s.a != 0#8)) ∧
    Instr.scf.encode = [0x37#8] ∧
    (∃ f, exec .scf s = .next { s with f := f, q := true } ∧
      flagsAre f (flagS s.f) (flagZ s.f) (fromA 5) false (fromA 3) (flagPV s.f) false true) ∧
    Instr.ccf.encode = [0x3F#8] ∧
    (∃ f, exec .ccf s = .next { s with f := f, q := true } ∧
      flagsAre f (flagS s.f) (flagZ s.f) (fromA 5) (flagC s.f) (fromA 3) (flagPV s.f) false (!flagC s.f))

/-! ### Rotates, shifts and bits -/

/-- RLCA, RRCA, RLA, RRA (44_rotate_bit.md R360 to R363): S, Z and PV are kept; RLD and RRD (R381, R382), nibble by nibble:
`rlca`, `rrca`, `rla`, `rra`, `rld`, `rrd`. -/
def Obligations.AccumulatorAndDigitRotates : Prop :=
  ∀ s : State,
    (∀ (k : Rot) (i : Instr),
      (k, i) ∈ [(Rot.rlc, Instr.rlca), (Rot.rrc, Instr.rrca), (Rot.rl, Instr.rla), (Rot.rr, Instr.rra)] →
      i.encode = [opByte (8 * k.y + 7)] ∧
      ∃ res f, exec i s = .next { s with a := res, f := f, q := true } ∧
        res.toNat = k.number s.a.toNat (carryNat s.f) ∧
        flagsAre f (flagS s.f) (flagZ s.f) (res.getLsbD 5) false (res.getLsbD 3) (flagPV s.f) false (k.carry s.a.toNat)) ∧
    let t := (s.peek s.hl).toNat
    let a := s.a.toNat
    let flags := fun (res f : Byte) =>
      flagsAre f res.msb (res == 0#8) (res.getLsbD 5) false (res.getLsbD 3) (evenOnes res) false (flagC s.f)
    Instr.rld.encode = [0xED#8, 0x6F#8] ∧
    (∃ res m f, exec .rld s =
        .next { (s.emit (.readByte s.hl)).store s.hl m with a := res, f := f, q := true, memptr := s.hl + 1#16 } ∧
      m.toNat = 16 * (t % 16) + a % 16 ∧ res.toNat = 16 * (a / 16) + t / 16 ∧ flags res f) ∧
    Instr.rrd.encode = [0xED#8, 0x67#8] ∧
    (∃ res m f, exec .rrd s =
        .next { (s.emit (.readByte s.hl)).store s.hl m with a := res, f := f, q := true, memptr := s.hl + 1#16 } ∧
      m.toNat = 16 * (a % 16) + t / 16 ∧ res.toNat = 16 * (a / 16) + t % 16 ∧ flags res f)

/-- The CB-page rotates and shifts of a register, of (HL) and of (IX+d) with or without register copy (44_rotate_bit.md R364 to
R373), the results as numbers: `Rot.onReg`, `Rot.onMem`, `Rot.onIndexed`. -/
def Obligations.RotateResults : Prop :=
  ∀ (s : State) (k : Rot) (r : Reg8) (x : Idx) (d : Byte) (copy : Option Reg8),
    let flags := fun (v res f : Byte) =>
      res.toNat = k.number v.toNat (carryNat s.f) ∧
      flagsAre f res.msb (res == 0#8) (res.getLsbD 5) false (res.getLsbD 3) (evenOnes res) false (k.carry v.toNat)
    (k.onReg r).encode = [0xCB#8, opByte (8 * k.y + r.field.toNat)] ∧
    (∃ res f, exec (k.onReg r) s = .next { s.setReg8 r res with f := f, q := true } ∧ flags (s.reg8 r) res f) ∧
    k.onMem.encode = [0xCB#8, opByte (8 * k.y + 6)] ∧
    (∃ res f, exec k.onMem s = .next { (s.emit (.readByte s.hl)).store s.hl res with f := f, q := true } ∧
      flags (s.peek s.hl) res f) ∧
    (k.onIndexed x d copy).encode = [x.byte, 0xCB#8, d, opByte (8 * k.y + (copyField copy).toNat)] ∧
    (∃ res f, exec (k.onIndexed x d copy) s =
        .next { ((s.emit (.readByte (s.ea x d))).store (s.ea x d) res).copyTo copy res with
          memptr := s.ea x d, f := f, q := true } ∧
      flags (s.peek (s.ea x d)) res f)

/-- BIT b of a register, of (HL) and of (IX+d) (44_rotate_bit.md R374, R375, R376): Y and X come from the register, from the high
byte of MEMPTR, from the high byte of the address: `bitR`, `bitM`, `bitXd`. -/
def Obligations.BitTestResults : Prop :=
  ∀ (s : State) (b z : BitVec 3) (r : Reg8) (x : Idx) (d : Byte),
    let flags := fun (v xy f : Byte) =>
      flagsAre f (b == 7#3 && v.getLsbD 7) (!v.getLsbD b.toNat) (xy.getLsbD 5) true (xy.getLsbD 3) (!v.getLsbD b.toNat) false
        (flagC s.f)
    (Instr.bitR b r).encode = [0xCB#8, opByte (0x40 + 8 * b.toNat + r.field.toNat)] ∧
    (∃ f, exec (.bitR b r) s = .next { s with f := f, q := true } ∧ flags (s.reg8 r) (s.reg8 r) f) ∧
    (Instr.bitM b).encode = [0xCB#8, opByte (0x46 + 8 * b.toNat)] ∧
    (∃ f, exec (.bitM b) s = .next { s.emit (.readByte s.hl) with f := f, q := true } ∧
      flags (s.peek s.hl) (hi s.memptr) f) ∧
    (Instr.bitXd x b d z).encode = [x.byte, 0xCB#8, d, opByte (0x40 + 8 * b.toNat + z.toNat)] ∧
    (∃ f, exec (.bitXd x b d z) s =
        .next { s.emit (.readByte (s.ea x d)) with memptr := s.ea x d, f := f, q := true } ∧
      flags (s.peek (s.ea x d)) (hi (s.ea x d)) f)

/-- SET b and RES b of a register, of (HL) and of (IX+d) with or without register copy (44_rotate_bit.md R377 to R380): one bit
changes, no flag does: `setR`, `setM`, `setXd`, `resR`, `resM`, `resXd`. -/
def Obligations.SetAndResResults : Prop :=
  ∀ (s : State) (b : BitVec 3) (r : Reg8) (x : Idx) (d : Byte) (copy : Option Reg8),
    let becomes := fun (v res : Byte) (one : Bool) =>
      ∀ k, k < 8 → res.getLsbD k = if k = b.toNat then one else v.getLsbD k
    ((Instr.setR b r).encode = [0xCB#8, opByte (0xC0 + 8 * b.toNat + r.field.toNat)] ∧
      ∃ res, exec (.setR b r) s = .next (s.setReg8 r res) ∧ becomes (s.reg8 r) res true) ∧
    ((Instr.setM b).encode = [0xCB#8, opByte (0xC6 + 8 * b.toNat)] ∧
      ∃ res, exec (.setM b) s = .next ((s.emit (.readByte s.hl)).store s.hl res) ∧ becomes (s.peek s.hl) res true) ∧
    ((Instr.setXd x b d copy).encode = [x.byte, 0xCB#8, d, opByte (0xC0 + 8 * b.toNat + (copyField copy).toNat)] ∧
      ∃ res, exec (.setXd x b d copy) s =
          .next (({ s with memptr := s.ea x d }.emit (.readByte (s.ea x d))).store (s.ea x d) res |>.copyTo copy res) ∧
        becomes (s.peek (s.ea x d)) res true) ∧
    ((Instr.resR b r).encode = [0xCB#8, opByte (0x80 + 8 * b.toNat + r.field.toNat)] ∧
      ∃ res, exec (.resR b r) s = .next (s.setReg8 r res) ∧ becomes (s.reg8 r) res false) ∧
    ((Instr.resM b).encode = [0xCB#8, opByte (0x86 + 8 * b.toNat)] ∧
      ∃ res, exec (.resM b) s = .next ((s.emit (.readByte s.hl)).store s.hl res) ∧ becomes (s.peek s.hl) res false) ∧
    ((Instr.resXd x b d copy).encode = [x.byte, 0xCB#8, d, opByte (0x80 + 8 * b.toNat + (copyField copy).toNat)] ∧
      ∃ res, exec (.resXd x b d copy) s =
          .next (({ s with memptr := s.ea x d }.emit (.readByte (s.ea x d))).store (s.ea x d) res |>.copyTo copy res) ∧
        becomes (s.peek (s.ea x d)) res false)

/-! ### Control -/

/-- The jumps (45_control.md R400 to R406), a relative target being PC + the signed displacement (30_encoding.md R111): `jpNn`,
`jpCcNn`, `jr`, `jrCc`, `djnz`, `jpHl`, `jpIx`; and what each condition tests (10_state.md R30). -/
def Obligations.JumpResults : Prop :=
  ∀ (s : State) (nn : Word) (cc : Cond) (e : Byte) (x : Idx),
    let target : Word := s.pc + e.signExtend 16
    (condHolds .nz s.f = !s.f.getLsbD 6 ∧ condHolds .z s.f = s.f.getLsbD 6 ∧ condHolds .nc s.f = !s.f.getLsbD 0 ∧
      condHolds .c s.f = s.f.getLsbD 0 ∧ condHolds .po s.f = !s.f.getLsbD 2 ∧ condHolds .pe s.f = s.f.getLsbD 2 ∧
      condHolds .p s.f = !s.f.getLsbD 7 ∧ condHolds .m s.f = s.f.getLsbD 7) ∧
    ((target.toNat : Int) = (s.pc.toNat + e.toInt) % 65536) ∧
    (Instr.jpNn nn).encode = [0xC3#8, lo nn, hi nn] ∧
    exec (.jpNn nn) s = .next { s with pc := nn, memptr := nn } ∧
    (Instr.jpCcNn cc nn).encode = [opByte (0xC2 + 8 * cc.field.toNat), lo nn, hi nn] ∧
    exec (.jpCcNn cc nn) s = .next { s with pc := if condHolds cc s.f then nn else s.pc, memptr := nn } ∧
    (Instr.jr e).encode = [0x18#8, e] ∧
    exec (.jr e) s = .next { s with pc := target, memptr := target } ∧
    (cc.field.toNat < 4 → (Instr.jrCc cc e).encode = [opByte (0x20 + 8 * cc.field.toNat), e]) ∧
    exec (.jrCc cc e) s = .next (if condHolds cc s.f then { s with pc := target, memptr := target } else s) ∧
    (Instr.djnz e).encode = [0x10#8, e] ∧
    exec (.djnz e) s = .next (if s.b = 1#8 then { s with b := 0#8 }
      else { s with b := s.b - 1#8, pc := target, memptr := target }) ∧
    Instr.jpHl.encode = [0xE9#8] ∧ exec .jpHl s = .next { s with pc := s.hl } ∧
    (Instr.jpIx x).encode = [x.byte, 0xE9#8] ∧ exec (.jpIx x) s = .next { s with pc := s.idx x }

/-- The calls and restarts (45_control.md R407, R408, R411): the pushed PC is the address after the instruction; a CALL cc that
is not taken writes MEMPTR and pushes nothing: `callNn`, `callCcNn`, `rst`. -/
def Obligations.CallResults : Prop :=
  ∀ (s : State) (nn : Word) (cc : Cond) (y : BitVec 3),
    let calls := fun (target : Word) =>
      { (s.store (s.sp - 1#16) (hi s.pc)).store (s.sp - 2#16) (lo s.pc) with
        sp := s.sp - 2#16, pc := target, memptr := target }
    (Instr.callNn nn).encode = [0xCD#8, lo nn, hi nn] ∧
    exec (.callNn nn) s = .next (calls nn) ∧
    (Instr.callCcNn cc nn).encode = [opByte (0xC4 + 8 * cc.field.toNat), lo nn, hi nn] ∧
    exec (.callCcNn cc nn) s = .next (if condHolds cc s.f then calls nn else { s with memptr := nn }) ∧
    (Instr.rst y).encode = [opByte (0xC7 + 8 * y.toNat)] ∧
    exec (.rst y) s = .next (calls (BitVec.ofNat 16 (8 * y.toNat)))

/-- The returns (45_control.md R409, R410, 48_cpu_control.md R501, R502): RETN (seven encodings) and RETI also copy IFF2 to
IFF1: `ret`, `retCc`, `retn`, `reti`. -/
def Obligations.ReturnResults : Prop :=
  ∀ (s : State) (cc : Cond) (y : BitVec 3),
    let w := join (s.peek (s.sp + 1#16)) (s.peek s.sp)
    let returns := { (s.emit (.readByte s.sp)).emit (.readByte (s.sp + 1#16)) with sp := s.sp + 2#16, pc := w, memptr := w }
    Instr.ret.encode = [0xC9#8] ∧ exec .ret s = .next returns ∧
    (Instr.retCc cc).encode = [opByte (0xC0 + 8 * cc.field.toNat)] ∧
    exec (.retCc cc) s = .next (if condHolds cc s.f then returns else s) ∧
    (y ≠ 1#3 → (Instr.retn y).encode = [0xED#8, opByte (0x45 + 8 * y.toNat)]) ∧
    exec (.retn y) s = .next { returns with iff1 := s.iff2 } ∧
    Instr.reti.encode = [0xED#8, 0x4D#8] ∧ exec .reti s = .next { returns with iff1 := s.iff2 }

/-! ### Block instructions -/

/-- LDI and LDD (46_block.md R440, R441); CPI and CPD (R444, R445), A − (HL) without changing A, MEMPTR moving with HL: `ldi`,
`ldd`, `cpi`, `cpd`. -/
def Obligations.BlockLoadAndCompareResults : Prop :=
  ∀ s : State,
    let v := s.peek s.hl
    let moved := (s.emit (.readByte s.hl)).store s.de v
    let ldFlags := fun (f : Byte) =>
      flagsAre f (flagS s.f) (flagZ s.f) ((s.a + v).getLsbD 1) false ((s.a + v).getLsbD 3) (s.bc != 1#16) false (flagC s.f)
    let res := s.a - v
    let borrow := decide (s.a.toNat % 16 < v.toNat % 16)
    let n := if borrow then res - 1#8 else res
    let cpFlags := fun (f : Byte) =>
      flagsAre f res.msb (s.a == v) (n.getLsbD 1) borrow (n.getLsbD 3) (s.bc != 1#16) true (flagC s.f)
    Instr.ldi.encode = [0xED#8, 0xA0#8] ∧
    (∃ f, exec .ldi s = .next { ((moved.setHl (s.hl + 1#16)).setDe (s.de + 1#16)).setBc (s.bc - 1#16) with
        f := f, q := true } ∧ ldFlags f) ∧
    Instr.ldd.encode = [0xED#8, 0xA8#8] ∧
    (∃ f, exec .ldd s = .next { ((moved.setHl (s.hl - 1#16)).setDe (s.de - 1#16)).setBc (s.bc - 1#16) with
        f := f, q := true } ∧ ldFlags f) ∧
    Instr.cpi.encode = [0xED#8, 0xA1#8] ∧
    (∃ f, exec .cpi s = .next { ((s.emit (.readByte s.hl)).setHl (s.hl + 1#16)).setBc (s.bc - 1#16) with
        f := f, q := true, memptr := s.memptr + 1#16 } ∧ cpFlags f) ∧
    Instr.cpd.encode = [0xED#8, 0xA9#8] ∧
    (∃ f, exec .cpd s = .next { ((s.emit (.readByte s.hl)).setHl (s.hl - 1#16)).setBc (s.bc - 1#16) with
        f := f, q := true, memptr := s.memptr - 1#16 } ∧ cpFlags f)

/-- INI and IND, whatever byte the port answers, with BC before B is decremented as the port (46_block.md R448, R449); OUTI and
OUTD, with BC after B is decremented as the port (R452, R453): `ini`, `ind`, `outi`, `outd`. -/
def Obligations.BlockPortResults : Prop :=
  ∀ s : State,
    let b := s.b - 1#8
    let answer := s.portAnswer s.bc
    let moved := (s.afterPortIn s.bc).store s.hl answer
    let v := s.peek s.hl
    let port := join b s.c
    let sent := (s.emit (.readByte s.hl)).emit (.portOut port v)
    let flags := fun (byte addend f : Byte) =>
      let k := byte.toNat + addend.toNat
      flagsAre f b.msb (s.b == 1#8) (b.getLsbD 5) (decide (255 < k)) (b.getLsbD 3)
        (evenOnes (BitVec.ofNat 8 (k % 8) ^^^ b)) byte.msb (decide (255 < k))
    Instr.ini.encode = [0xED#8, 0xA2#8] ∧
    (∃ f, exec .ini s = .next { moved.setHl (s.hl + 1#16) with b := b, memptr := s.bc + 1#16, f := f, q := true } ∧
      flags answer (s.c + 1#8) f) ∧
    Instr.ind.encode = [0xED#8, 0xAA#8] ∧
    (∃ f, exec .ind s = .next { moved.setHl (s.hl - 1#16) with b := b, memptr := s.bc - 1#16, f := f, q := true } ∧
      flags answer (s.c - 1#8) f) ∧
    Instr.outi.encode = [0xED#8, 0xA3#8] ∧
    (∃ f, exec .outi s = .next { sent.setHl (s.hl + 1#16) with b := b, memptr := port + 1#16, f := f, q := true } ∧
      flags v (s.l + 1#8) f) ∧
    Instr.outd.encode = [0xED#8, 0xAB#8] ∧
    (∃ f, exec .outd s = .next { sent.setHl (s.hl - 1#16) with b := b, memptr := port - 1#16, f := f, q := true } ∧
      flags v (s.l - 1#8) f)

/-- The eight repeating forms (46_block.md R442, R443, R446, R447, R450, R451, R454, R455, R456): one iteration of the single
form; if the count is not 0 (and, for the compares, there is no match) PC goes back to the ED byte, and MEMPTR becomes PC + 1 for
the loads and compares. Under BLOCK_REPEAT_XY = pc_high such a repetition is the refusal R456 asks for: `ldir`, `lddr`,
`cpir`, `cpdr`, `inir`, `indr`, `otir`, `otdr`. -/
def Obligations.RepeatingForms : Prop :=
  ∀ (s t : State) (single repeating : Instr) (y : Nat) (isIo again : Bool),
    ((single, repeating, y, isIo, again) ∈
      [(Instr.ldi, Instr.ldir, 0xB0, false, t.bc != 0#16), (.ldd, .lddr, 0xB8, false, t.bc != 0#16),
       (.cpi, .cpir, 0xB1, false, t.bc != 0#16 && !flagZ t.f), (.cpd, .cpdr, 0xB9, false, t.bc != 0#16 && !flagZ t.f),
       (.ini, .inir, 0xB2, true, t.b != 0#8), (.ind, .indr, 0xBA, true, t.b != 0#8),
       (.outi, .otir, 0xB3, true, t.b != 0#8), (.outd, .otdr, 0xBB, true, t.b != 0#8)]) →
    exec single s = .next t →
    repeating.encode = [0xED#8, opByte y] ∧
    (again = false → exec repeating s = .next t) ∧
    (again = true → s.params.blockRepeatXY = .asSingle →
      exec repeating s =
        .next { t with pc := s.pc - 2#16, memptr := if isIo then t.memptr else s.pc - 1#16 }) ∧
    (again = true → s.params.blockRepeatXY = .pcHigh → exec repeating s = .refused .blockRepeatPcHigh)

/-! ### Input and output -/

/-- IN and OUT (47_io.md R470 to R476), whatever byte the port answers: `inAN`, `inRC`, `inC`, `outNA`, `outCR`, `outC0`. -/
def Obligations.PortResults : Prop :=
  ∀ (s : State) (n : Byte) (r : Reg8),
    let p := join s.a n
    let flags := fun (v f : Byte) =>
      flagsAre f v.msb (v == 0#8) (v.getLsbD 5) false (v.getLsbD 3) (evenOnes v) false (flagC s.f)
    (Instr.inAN n).encode = [0xDB#8, n] ∧
    exec (.inAN n) s = .next { s.afterPortIn p with a := s.portAnswer p, memptr := p + 1#16 } ∧
    (Instr.inRC r).encode = [0xED#8, opByte (0x40 + 8 * r.field.toNat)] ∧
    (∃ f, exec (.inRC r) s = .next { (s.afterPortIn s.bc).setReg8 r (s.portAnswer s.bc) with
        memptr := s.bc + 1#16, f := f, q := true } ∧ flags (s.portAnswer s.bc) f) ∧
    Instr.inC.encode = [0xED#8, 0x70#8] ∧
    (∃ f, exec .inC s = .next { s.afterPortIn s.bc with memptr := s.bc + 1#16, f := f, q := true } ∧
      flags (s.portAnswer s.bc) f) ∧
    (Instr.outNA n).encode = [0xD3#8, n] ∧
    exec (.outNA n) s = .next { s.emit (.portOut p s.a) with memptr := join s.a (n + 1#8) } ∧
    (Instr.outCR r).encode = [0xED#8, opByte (0x41 + 8 * r.field.toNat)] ∧
    exec (.outCR r) s = .next { s.emit (.portOut s.bc (s.reg8 r)) with memptr := s.bc + 1#16 } ∧
    Instr.outC0.encode = [0xED#8, 0x71#8] ∧
    exec .outC0 s = .next { s.emit (.portOut s.bc 0x00#8) with memptr := s.bc + 1#16 }

/-! ### CPU control -/

/-- NOP, the no-operations of the extended page, HALT, DI, EI and IM (48_cpu_control.md R490 to R496, R503): `nop`, `nopEd0`,
`nopEd2`, `nopEd3`, `nopEd7`, `halt`, `di`, `ei`, `im0`, `im1`, `im2`. -/
def Obligations.ControlResults : Prop :=
  ∀ (s : State) (x : BitVec 6) (y z : BitVec 3) (y5 y3 : Bool),
    Instr.nop.encode = [0x00#8] ∧ exec .nop s = .next s ∧
    (Instr.nopEd0 x).encode = [0xED#8, opByte x.toNat] ∧ exec (.nopEd0 x) s = .next s ∧
    (Instr.nopEd2 y z).encode = [0xED#8, opByte (0x80 + 8 * y.toNat + z.toNat)] ∧ exec (.nopEd2 y z) s = .next s ∧
    (Instr.nopEd3 x).encode = [0xED#8, opByte (0xC0 + x.toNat)] ∧ exec (.nopEd3 x) s = .next s ∧
    (Instr.nopEd7 y3).encode = [0xED#8, if y3 then 0x7F#8 else 0x77#8] ∧ exec (.nopEd7 y3) s = .next s ∧
    Instr.halt.encode = [0x76#8] ∧ exec .halt s = .next { s with halted := true, pc := s.pc - 1#16 } ∧
    Instr.di.encode = [0xF3#8] ∧ exec .di s = .next { s with iff1 := false, iff2 := false } ∧
    Instr.ei.encode = [0xFB#8] ∧ exec .ei s = .next { s with iff1 := true, iff2 := true, pendingEI := true } ∧
    (Instr.im0 y5 y3).encode = [0xED#8, opByte (0x46 + (if y5 then 0x20 else 0) + (if y3 then 8 else 0))] ∧
    exec (.im0 y5 y3) s = .next { s with im := .im0 } ∧
    (Instr.im1 y5).encode = [0xED#8, if y5 then 0x76#8 else 0x56#8] ∧ exec (.im1 y5) s = .next { s with im := .im1 } ∧
    (Instr.im2 y5).encode = [0xED#8, if y5 then 0x7E#8 else 0x5E#8] ∧ exec (.im2 y5) s = .next { s with im := .im2 }

/-- LD I,A, LD R,A, LD A,I and LD A,R (48_cpu_control.md R497 to R500), PV being IFF2: `ldIA`, `ldRA`, `ldAI`,
`ldAR`. (lastLdAIR is the model's own field, log entry 9.) -/
def Obligations.SpecialRegisterLoads : Prop :=
  ∀ s : State,
    let flags := fun (v f : Byte) =>
      flagsAre f v.msb (v == 0#8) (v.getLsbD 5) false (v.getLsbD 3) s.iff2 false (flagC s.f)
    Instr.ldIA.encode = [0xED#8, 0x47#8] ∧ exec .ldIA s = .next { s with i := s.a } ∧
    Instr.ldRA.encode = [0xED#8, 0x4F#8] ∧ exec .ldRA s = .next { s with r := s.a } ∧
    Instr.ldAI.encode = [0xED#8, 0x57#8] ∧
    (∃ f, exec .ldAI s = .next { s with a := s.i, f := f, q := true, lastLdAIR := true } ∧ flags s.i f) ∧
    Instr.ldAR.encode = [0xED#8, 0x5F#8] ∧
    (∃ f, exec .ldAR s = .next { s with a := s.r, f := f, q := true, lastLdAIR := true } ∧ flags s.r f)

/-- The prefix steps (30_encoding.md R117) latch the index register and change nothing else, a later prefix replacing an earlier
one. The five naming rows have exactly the effect of the instruction their bytes select (R118, 48_cpu_control.md R504; that they
are constructors of their own is the model's, log entry 10), and an ignored prefix executes as without the prefix:
`ddFdPrefix`, `prefixAgain`, `cbPrefix`, `edPrefix`, `ddCb`, `edAfterIndex`, `prefixIgnored`. -/
def Obligations.PrefixResults : Prop :=
  ∀ (s : State) (x y : Idx) (d op b1 b2 b3 : Byte),
    decodeAt none x.byte b1 b2 b3 = .ddFdPrefix x ∧ decodeAt (some y) x.byte b1 b2 b3 = .prefixAgain x ∧
    exec (.ddFdPrefix x) s = .next { s with pfx := some x } ∧
    exec (.prefixAgain x) s = .next { s with pfx := some x } ∧
    exec (.cbPrefix op) s = exec (decodeAt none 0xCB#8 op b1 b2) s ∧
    exec (.edPrefix op b1 b2) s = exec (decodeAt none 0xED#8 op b1 b2) s ∧
    exec (.ddCb x d op) s = exec (decodeAt (some x) 0xCB#8 d op b3) s ∧
    exec (.edAfterIndex x op b1 b2) s = exec (decodeAt none 0xED#8 op b1 b2) s ∧
    decodeAt (some x) 0xED#8 op b1 b2 = decodeAt none 0xED#8 op b1 b2 ∧
    (prefixIgnorable op = true →
      exec (.prefixIgnored x op b1 b2) s = exec (decodeAt none op b1 b2 b3) s ∧
      decodeAt (some x) op b1 b2 b3 = decodeAt none op b1 b2 b3)
end

