-- ==== Sys2Proof/Laws/Bits.lean ====
section
/-! SUPPORT. Bytes, words and masks. -/

namespace Sys2Proof

theorem join_toNat (h l : Byte) : (join h l).toNat = 256 * h.toNat + l.toNat := by
  change (h ++ l : BitVec (8 + 8)).toNat = _
  rw [BitVec.toNat_append, Nat.shiftLeft_eq, Nat.mul_comm]
  exact (Nat.two_pow_add_eq_or_of_lt l.isLt h.toNat).symm

theorem hi_toNat (w : Word) : (hi w).toNat = w.toNat / 256 := by
  unfold hi
  rw [BitVec.extractLsb'_toNat, Nat.shiftRight_eq_div_pow]
  have := w.isLt
  omega

theorem lo_toNat (w : Word) : (lo w).toNat = w.toNat % 256 := by
  unfold lo
  rw [BitVec.extractLsb'_toNat]
  simp

@[simp] theorem hi_join (h l : Byte) : hi (join h l) = h := by
  apply BitVec.eq_of_toNat_eq
  rw [hi_toNat, join_toNat]
  have := l.isLt
  omega

@[simp] theorem lo_join (h l : Byte) : lo (join h l) = l := by
  apply BitVec.eq_of_toNat_eq
  rw [lo_toNat, join_toNat]
  have := l.isLt
  omega

@[simp] theorem join_hi_lo (w : Word) : join (hi w) (lo w) = w := by
  apply BitVec.eq_of_toNat_eq
  rw [join_toNat, hi_toNat, lo_toNat]
  omega

theorem hi_getLsbD (w : Word) (k : Nat) : (hi w).getLsbD k = (decide (k < 8) && w.getLsbD (8 + k)) := by
  unfold hi
  simp

/-- A bit of a mask put in when a condition holds. -/
@[simp] theorem maskIf_getLsbD (c : Bool) (m : Byte) (k : Nat) : (maskIf c m).getLsbD k = (c && m.getLsbD k) := by
  cases c <;> simp [maskIf]

@[simp] theorem maskIf_true (m : Byte) : maskIf true m = m := rfl

@[simp] theorem maskIf_false (m : Byte) : maskIf false m = 0#8 := rfl

/-- A displacement as a signed number. -/
theorem sext8_toInt (d : Byte) : (sext8 d).toInt = d.toInt := by
  unfold sext8
  exact BitVec.toInt_signExtend_of_le (by decide)

/-- Adding a sign-extended displacement adds its signed value, modulo 65,536. -/
theorem add_sext8_toNat (w : Word) (d : Byte) : ((w + sext8 d).toNat : Int) = (w.toNat + d.toInt) % 65536 := by
  have h := sext8_toInt d
  rw [BitVec.toInt_eq_toNat_cond] at h
  rw [BitVec.toNat_add]
  have hs := (sext8 d).isLt
  have hw := w.isLt
  split at h <;> omega

end Sys2Proof
end

