-- ==== Sys2Proof/Laws/Flags.lean ====
section
/-! SUPPORT. Each bit of the flag tables, and overflow, carry and parity in arithmetic terms. -/

namespace Sys2Proof.Machine

/-- A byte is 0 exactly when its number is. -/
theorem beq_zero_toNat (v : Byte) : (v == 0#8) = decide (v.toNat = 0) := by
  rw [Bool.eq_iff_iff]
  simp [← BitVec.toNat_inj]

theorem sz53nAdd_getLsbD (v : Byte) (k : Nat) :
    (sz53nAdd v).getLsbD k = ((v.getLsbD k && (0xA8#8).getLsbD k) || (v == 0#8 && (0x40#8).getLsbD k)) := by
  simp [sz53nAdd, bitZ]

theorem sz53pnAdd_getLsbD (v : Byte) (k : Nat) :
    (sz53pnAdd v).getLsbD k = ((sz53nAdd v).getLsbD k || (parity v && (0x04#8).getLsbD k)) := by
  simp [sz53pnAdd, bitPV]

theorem sz53nSub_getLsbD (v : Byte) (k : Nat) :
    (sz53nSub v).getLsbD k = ((sz53nAdd v).getLsbD k || (0x02#8).getLsbD k) := by
  simp [sz53nSub]

/-- `parity` is evenness of the number of 1 bits (10_state.md R31). -/
theorem parity_eq_evenOnes (v : Byte) : parity v = evenOnes v := by
  unfold parity evenOnes
  simp only [List.range, List.range.loop, List.countP, List.countP.go]
  cases v.getLsbD 0 <;> cases v.getLsbD 1 <;> cases v.getLsbD 2 <;> cases v.getLsbD 3 <;> cases v.getLsbD 4 <;>
    cases v.getLsbD 5 <;> cases v.getLsbD 6 <;> cases v.getLsbD 7 <;> rfl

theorem msb_toNat (v : Byte) : v.msb = decide (128 ≤ v.toNat) := by
  rw [BitVec.msb_eq_decide]

theorem getLsbD_seven (v : Byte) : v.getLsbD 7 = decide (128 ≤ v.toNat) := by
  rw [← msb_toNat]
  rfl

theorem toInt_byte (v : Byte) : v.toInt = if 128 ≤ v.toNat then (v.toNat : Int) - 256 else v.toNat := by
  rw [BitVec.toInt_eq_toNat_cond]
  split <;> split <;> omega

theorem msb_toNat16 (v : Word) : v.msb = decide (32768 ≤ v.toNat) := by
  rw [BitVec.msb_eq_decide]

theorem toInt_word (v : Word) : v.toInt = if 32768 ≤ v.toNat then (v.toNat : Int) - 65536 else v.toNat := by
  rw [BitVec.toInt_eq_toNat_cond]
  split <;> split <;> omega

theorem carryByte_toNat (f : Byte) : (carryByte f).toNat = carryNat f := by
  unfold carryByte carryNat
  split <;> rfl

theorem carryWord_toNat (f : Byte) : (carryWord f).toNat = carryNat f := by
  unfold carryWord carryNat
  split <;> rfl

theorem bit_flagC (f : Byte) : bit (flagC f) = carryNat f := rfl

theorem carryNat_le (f : Byte) : carryNat f ≤ 1 := by
  unfold carryNat
  split <;> omega

/-- Overflow of an addition with carry in: the result's sign is wrong exactly when the exact sum does not fit. -/
theorem addOverflow_exact {a v res : Byte} {c : Nat} (hc : c ≤ 1) (h : res.toNat = (a.toNat + v.toNat + c) % 256) :
    addOverflow a v res = overflows8 (a.toInt + v.toInt + c) := by
  have ha := a.isLt
  have hv := v.isLt
  rw [Bool.eq_iff_iff]
  simp only [addOverflow, overflows8, msb_toNat, toInt_byte, Bool.and_eq_true, Bool.or_eq_true, decide_eq_true_eq,
    beq_iff_eq, bne_iff_ne, ne_eq, decide_eq_decide]
  split_ifs <;> omega

/-- Overflow of a subtraction with borrow in. -/
theorem subOverflow_exact {a v res : Byte} {c : Nat} (hc : c ≤ 1)
    (h : (res.toNat : Int) = ((a.toNat : Int) - v.toNat - c) % 256) :
    subOverflow a v res = overflows8 (a.toInt - v.toInt - c) := by
  have ha := a.isLt
  have hv := v.isLt
  rw [Bool.eq_iff_iff]
  simp only [subOverflow, overflows8, msb_toNat, toInt_byte, Bool.and_eq_true, Bool.or_eq_true, decide_eq_true_eq,
    bne_iff_ne, ne_eq, decide_eq_decide]
  split_ifs <;> omega

theorem add_carry_toNat (a v f : Byte) : (a + v + carryByte f).toNat = (a.toNat + v.toNat + carryNat f) % 256 := by
  simp [BitVec.toNat_add, carryByte_toNat]

theorem sub_carry_toNat (a v f : Byte) :
    ((a - v - carryByte f).toNat : Int) = ((a.toNat : Int) - v.toNat - carryNat f) % 256 := by
  have ha := a.isLt
  have hv := v.isLt
  have hc := carryNat_le f
  simp only [BitVec.toNat_sub, carryByte_toNat]
  omega

theorem sub_toNat_int (a v : Byte) : ((a - v).toNat : Int) = ((a.toNat : Int) - v.toNat) % 256 := by
  have ha := a.isLt
  have hv := v.isLt
  simp only [BitVec.toNat_sub]
  omega

end Sys2Proof.Machine
end

