-- ==== Sys2Proof/Laws/State.lean ====
section
/-! SUPPORT. What each update of the state leaves in each field: one lemma per field per update. The updates that go through a
register number say it through the accessor. -/

namespace Sys2Proof.Machine


/-! `setBc` -/
@[simp] theorem setBc_a (s : State) (v : Word) : (s.setBc v).a = s.a := rfl
@[simp] theorem setBc_f (s : State) (v : Word) : (s.setBc v).f = s.f := rfl
@[simp] theorem setBc_b (s : State) (v : Word) : (s.setBc v).b = hi v := rfl
@[simp] theorem setBc_c (s : State) (v : Word) : (s.setBc v).c = lo v := rfl
@[simp] theorem setBc_d (s : State) (v : Word) : (s.setBc v).d = s.d := rfl
@[simp] theorem setBc_e (s : State) (v : Word) : (s.setBc v).e = s.e := rfl
@[simp] theorem setBc_h (s : State) (v : Word) : (s.setBc v).h = s.h := rfl
@[simp] theorem setBc_l (s : State) (v : Word) : (s.setBc v).l = s.l := rfl
@[simp] theorem setBc_aAlt (s : State) (v : Word) : (s.setBc v).aAlt = s.aAlt := rfl
@[simp] theorem setBc_fAlt (s : State) (v : Word) : (s.setBc v).fAlt = s.fAlt := rfl
@[simp] theorem setBc_bAlt (s : State) (v : Word) : (s.setBc v).bAlt = s.bAlt := rfl
@[simp] theorem setBc_cAlt (s : State) (v : Word) : (s.setBc v).cAlt = s.cAlt := rfl
@[simp] theorem setBc_dAlt (s : State) (v : Word) : (s.setBc v).dAlt = s.dAlt := rfl
@[simp] theorem setBc_eAlt (s : State) (v : Word) : (s.setBc v).eAlt = s.eAlt := rfl
@[simp] theorem setBc_hAlt (s : State) (v : Word) : (s.setBc v).hAlt = s.hAlt := rfl
@[simp] theorem setBc_lAlt (s : State) (v : Word) : (s.setBc v).lAlt = s.lAlt := rfl
@[simp] theorem setBc_ix (s : State) (v : Word) : (s.setBc v).ix = s.ix := rfl
@[simp] theorem setBc_iy (s : State) (v : Word) : (s.setBc v).iy = s.iy := rfl
@[simp] theorem setBc_sp (s : State) (v : Word) : (s.setBc v).sp = s.sp := rfl
@[simp] theorem setBc_pc (s : State) (v : Word) : (s.setBc v).pc = s.pc := rfl
@[simp] theorem setBc_i (s : State) (v : Word) : (s.setBc v).i = s.i := rfl
@[simp] theorem setBc_r (s : State) (v : Word) : (s.setBc v).r = s.r := rfl
@[simp] theorem setBc_memptr (s : State) (v : Word) : (s.setBc v).memptr = s.memptr := rfl
@[simp] theorem setBc_iff1 (s : State) (v : Word) : (s.setBc v).iff1 = s.iff1 := rfl
@[simp] theorem setBc_iff2 (s : State) (v : Word) : (s.setBc v).iff2 = s.iff2 := rfl
@[simp] theorem setBc_im (s : State) (v : Word) : (s.setBc v).im = s.im := rfl
@[simp] theorem setBc_pendingEI (s : State) (v : Word) : (s.setBc v).pendingEI = s.pendingEI := rfl
@[simp] theorem setBc_halted (s : State) (v : Word) : (s.setBc v).halted = s.halted := rfl
@[simp] theorem setBc_nmiPending (s : State) (v : Word) : (s.setBc v).nmiPending = s.nmiPending := rfl
@[simp] theorem setBc_intLine (s : State) (v : Word) : (s.setBc v).intLine = s.intLine := rfl
@[simp] theorem setBc_resetRequest (s : State) (v : Word) : (s.setBc v).resetRequest = s.resetRequest := rfl
@[simp] theorem setBc_q (s : State) (v : Word) : (s.setBc v).q = s.q := rfl
@[simp] theorem setBc_lastQ (s : State) (v : Word) : (s.setBc v).lastQ = s.lastQ := rfl
@[simp] theorem setBc_pfx (s : State) (v : Word) : (s.setBc v).pfx = s.pfx := rfl
@[simp] theorem setBc_breakpoints (s : State) (v : Word) : (s.setBc v).breakpoints = s.breakpoints := rfl
@[simp] theorem setBc_mem (s : State) (v : Word) : (s.setBc v).mem = s.mem := rfl
@[simp] theorem setBc_bus (s : State) (v : Word) : (s.setBc v).bus = s.bus := rfl
@[simp] theorem setBc_portAnswers (s : State) (v : Word) : (s.setBc v).portAnswers = s.portAnswers := rfl
@[simp] theorem setBc_ackAnswers (s : State) (v : Word) : (s.setBc v).ackAnswers = s.ackAnswers := rfl
@[simp] theorem setBc_hookAnswers (s : State) (v : Word) : (s.setBc v).hookAnswers = s.hookAnswers := rfl
@[simp] theorem setBc_draws (s : State) (v : Word) : (s.setBc v).draws = s.draws := rfl
@[simp] theorem setBc_params (s : State) (v : Word) : (s.setBc v).params = s.params := rfl
@[simp] theorem setBc_lastLdAIR (s : State) (v : Word) : (s.setBc v).lastLdAIR = s.lastLdAIR := rfl
@[simp] theorem setBc_kind (s : State) (v : Word) : (s.setBc v).kind = s.kind := rfl

/-! `setDe` -/
@[simp] theorem setDe_a (s : State) (v : Word) : (s.setDe v).a = s.a := rfl
@[simp] theorem setDe_f (s : State) (v : Word) : (s.setDe v).f = s.f := rfl
@[simp] theorem setDe_b (s : State) (v : Word) : (s.setDe v).b = s.b := rfl
@[simp] theorem setDe_c (s : State) (v : Word) : (s.setDe v).c = s.c := rfl
@[simp] theorem setDe_d (s : State) (v : Word) : (s.setDe v).d = hi v := rfl
@[simp] theorem setDe_e (s : State) (v : Word) : (s.setDe v).e = lo v := rfl
@[simp] theorem setDe_h (s : State) (v : Word) : (s.setDe v).h = s.h := rfl
@[simp] theorem setDe_l (s : State) (v : Word) : (s.setDe v).l = s.l := rfl
@[simp] theorem setDe_aAlt (s : State) (v : Word) : (s.setDe v).aAlt = s.aAlt := rfl
@[simp] theorem setDe_fAlt (s : State) (v : Word) : (s.setDe v).fAlt = s.fAlt := rfl
@[simp] theorem setDe_bAlt (s : State) (v : Word) : (s.setDe v).bAlt = s.bAlt := rfl
@[simp] theorem setDe_cAlt (s : State) (v : Word) : (s.setDe v).cAlt = s.cAlt := rfl
@[simp] theorem setDe_dAlt (s : State) (v : Word) : (s.setDe v).dAlt = s.dAlt := rfl
@[simp] theorem setDe_eAlt (s : State) (v : Word) : (s.setDe v).eAlt = s.eAlt := rfl
@[simp] theorem setDe_hAlt (s : State) (v : Word) : (s.setDe v).hAlt = s.hAlt := rfl
@[simp] theorem setDe_lAlt (s : State) (v : Word) : (s.setDe v).lAlt = s.lAlt := rfl
@[simp] theorem setDe_ix (s : State) (v : Word) : (s.setDe v).ix = s.ix := rfl
@[simp] theorem setDe_iy (s : State) (v : Word) : (s.setDe v).iy = s.iy := rfl
@[simp] theorem setDe_sp (s : State) (v : Word) : (s.setDe v).sp = s.sp := rfl
@[simp] theorem setDe_pc (s : State) (v : Word) : (s.setDe v).pc = s.pc := rfl
@[simp] theorem setDe_i (s : State) (v : Word) : (s.setDe v).i = s.i := rfl
@[simp] theorem setDe_r (s : State) (v : Word) : (s.setDe v).r = s.r := rfl
@[simp] theorem setDe_memptr (s : State) (v : Word) : (s.setDe v).memptr = s.memptr := rfl
@[simp] theorem setDe_iff1 (s : State) (v : Word) : (s.setDe v).iff1 = s.iff1 := rfl
@[simp] theorem setDe_iff2 (s : State) (v : Word) : (s.setDe v).iff2 = s.iff2 := rfl
@[simp] theorem setDe_im (s : State) (v : Word) : (s.setDe v).im = s.im := rfl
@[simp] theorem setDe_pendingEI (s : State) (v : Word) : (s.setDe v).pendingEI = s.pendingEI := rfl
@[simp] theorem setDe_halted (s : State) (v : Word) : (s.setDe v).halted = s.halted := rfl
@[simp] theorem setDe_nmiPending (s : State) (v : Word) : (s.setDe v).nmiPending = s.nmiPending := rfl
@[simp] theorem setDe_intLine (s : State) (v : Word) : (s.setDe v).intLine = s.intLine := rfl
@[simp] theorem setDe_resetRequest (s : State) (v : Word) : (s.setDe v).resetRequest = s.resetRequest := rfl
@[simp] theorem setDe_q (s : State) (v : Word) : (s.setDe v).q = s.q := rfl
@[simp] theorem setDe_lastQ (s : State) (v : Word) : (s.setDe v).lastQ = s.lastQ := rfl
@[simp] theorem setDe_pfx (s : State) (v : Word) : (s.setDe v).pfx = s.pfx := rfl
@[simp] theorem setDe_breakpoints (s : State) (v : Word) : (s.setDe v).breakpoints = s.breakpoints := rfl
@[simp] theorem setDe_mem (s : State) (v : Word) : (s.setDe v).mem = s.mem := rfl
@[simp] theorem setDe_bus (s : State) (v : Word) : (s.setDe v).bus = s.bus := rfl
@[simp] theorem setDe_portAnswers (s : State) (v : Word) : (s.setDe v).portAnswers = s.portAnswers := rfl
@[simp] theorem setDe_ackAnswers (s : State) (v : Word) : (s.setDe v).ackAnswers = s.ackAnswers := rfl
@[simp] theorem setDe_hookAnswers (s : State) (v : Word) : (s.setDe v).hookAnswers = s.hookAnswers := rfl
@[simp] theorem setDe_draws (s : State) (v : Word) : (s.setDe v).draws = s.draws := rfl
@[simp] theorem setDe_params (s : State) (v : Word) : (s.setDe v).params = s.params := rfl
@[simp] theorem setDe_lastLdAIR (s : State) (v : Word) : (s.setDe v).lastLdAIR = s.lastLdAIR := rfl
@[simp] theorem setDe_kind (s : State) (v : Word) : (s.setDe v).kind = s.kind := rfl

/-! `setHl` -/
@[simp] theorem setHl_a (s : State) (v : Word) : (s.setHl v).a = s.a := rfl
@[simp] theorem setHl_f (s : State) (v : Word) : (s.setHl v).f = s.f := rfl
@[simp] theorem setHl_b (s : State) (v : Word) : (s.setHl v).b = s.b := rfl
@[simp] theorem setHl_c (s : State) (v : Word) : (s.setHl v).c = s.c := rfl
@[simp] theorem setHl_d (s : State) (v : Word) : (s.setHl v).d = s.d := rfl
@[simp] theorem setHl_e (s : State) (v : Word) : (s.setHl v).e = s.e := rfl
@[simp] theorem setHl_h (s : State) (v : Word) : (s.setHl v).h = hi v := rfl
@[simp] theorem setHl_l (s : State) (v : Word) : (s.setHl v).l = lo v := rfl
@[simp] theorem setHl_aAlt (s : State) (v : Word) : (s.setHl v).aAlt = s.aAlt := rfl
@[simp] theorem setHl_fAlt (s : State) (v : Word) : (s.setHl v).fAlt = s.fAlt := rfl
@[simp] theorem setHl_bAlt (s : State) (v : Word) : (s.setHl v).bAlt = s.bAlt := rfl
@[simp] theorem setHl_cAlt (s : State) (v : Word) : (s.setHl v).cAlt = s.cAlt := rfl
@[simp] theorem setHl_dAlt (s : State) (v : Word) : (s.setHl v).dAlt = s.dAlt := rfl
@[simp] theorem setHl_eAlt (s : State) (v : Word) : (s.setHl v).eAlt = s.eAlt := rfl
@[simp] theorem setHl_hAlt (s : State) (v : Word) : (s.setHl v).hAlt = s.hAlt := rfl
@[simp] theorem setHl_lAlt (s : State) (v : Word) : (s.setHl v).lAlt = s.lAlt := rfl
@[simp] theorem setHl_ix (s : State) (v : Word) : (s.setHl v).ix = s.ix := rfl
@[simp] theorem setHl_iy (s : State) (v : Word) : (s.setHl v).iy = s.iy := rfl
@[simp] theorem setHl_sp (s : State) (v : Word) : (s.setHl v).sp = s.sp := rfl
@[simp] theorem setHl_pc (s : State) (v : Word) : (s.setHl v).pc = s.pc := rfl
@[simp] theorem setHl_i (s : State) (v : Word) : (s.setHl v).i = s.i := rfl
@[simp] theorem setHl_r (s : State) (v : Word) : (s.setHl v).r = s.r := rfl
@[simp] theorem setHl_memptr (s : State) (v : Word) : (s.setHl v).memptr = s.memptr := rfl
@[simp] theorem setHl_iff1 (s : State) (v : Word) : (s.setHl v).iff1 = s.iff1 := rfl
@[simp] theorem setHl_iff2 (s : State) (v : Word) : (s.setHl v).iff2 = s.iff2 := rfl
@[simp] theorem setHl_im (s : State) (v : Word) : (s.setHl v).im = s.im := rfl
@[simp] theorem setHl_pendingEI (s : State) (v : Word) : (s.setHl v).pendingEI = s.pendingEI := rfl
@[simp] theorem setHl_halted (s : State) (v : Word) : (s.setHl v).halted = s.halted := rfl
@[simp] theorem setHl_nmiPending (s : State) (v : Word) : (s.setHl v).nmiPending = s.nmiPending := rfl
@[simp] theorem setHl_intLine (s : State) (v : Word) : (s.setHl v).intLine = s.intLine := rfl
@[simp] theorem setHl_resetRequest (s : State) (v : Word) : (s.setHl v).resetRequest = s.resetRequest := rfl
@[simp] theorem setHl_q (s : State) (v : Word) : (s.setHl v).q = s.q := rfl
@[simp] theorem setHl_lastQ (s : State) (v : Word) : (s.setHl v).lastQ = s.lastQ := rfl
@[simp] theorem setHl_pfx (s : State) (v : Word) : (s.setHl v).pfx = s.pfx := rfl
@[simp] theorem setHl_breakpoints (s : State) (v : Word) : (s.setHl v).breakpoints = s.breakpoints := rfl
@[simp] theorem setHl_mem (s : State) (v : Word) : (s.setHl v).mem = s.mem := rfl
@[simp] theorem setHl_bus (s : State) (v : Word) : (s.setHl v).bus = s.bus := rfl
@[simp] theorem setHl_portAnswers (s : State) (v : Word) : (s.setHl v).portAnswers = s.portAnswers := rfl
@[simp] theorem setHl_ackAnswers (s : State) (v : Word) : (s.setHl v).ackAnswers = s.ackAnswers := rfl
@[simp] theorem setHl_hookAnswers (s : State) (v : Word) : (s.setHl v).hookAnswers = s.hookAnswers := rfl
@[simp] theorem setHl_draws (s : State) (v : Word) : (s.setHl v).draws = s.draws := rfl
@[simp] theorem setHl_params (s : State) (v : Word) : (s.setHl v).params = s.params := rfl
@[simp] theorem setHl_lastLdAIR (s : State) (v : Word) : (s.setHl v).lastLdAIR = s.lastLdAIR := rfl
@[simp] theorem setHl_kind (s : State) (v : Word) : (s.setHl v).kind = s.kind := rfl

/-! `setAf` -/
@[simp] theorem setAf_a (s : State) (v : Word) : (s.setAf v).a = hi v := rfl
@[simp] theorem setAf_f (s : State) (v : Word) : (s.setAf v).f = lo v := rfl
@[simp] theorem setAf_b (s : State) (v : Word) : (s.setAf v).b = s.b := rfl
@[simp] theorem setAf_c (s : State) (v : Word) : (s.setAf v).c = s.c := rfl
@[simp] theorem setAf_d (s : State) (v : Word) : (s.setAf v).d = s.d := rfl
@[simp] theorem setAf_e (s : State) (v : Word) : (s.setAf v).e = s.e := rfl
@[simp] theorem setAf_h (s : State) (v : Word) : (s.setAf v).h = s.h := rfl
@[simp] theorem setAf_l (s : State) (v : Word) : (s.setAf v).l = s.l := rfl
@[simp] theorem setAf_aAlt (s : State) (v : Word) : (s.setAf v).aAlt = s.aAlt := rfl
@[simp] theorem setAf_fAlt (s : State) (v : Word) : (s.setAf v).fAlt = s.fAlt := rfl
@[simp] theorem setAf_bAlt (s : State) (v : Word) : (s.setAf v).bAlt = s.bAlt := rfl
@[simp] theorem setAf_cAlt (s : State) (v : Word) : (s.setAf v).cAlt = s.cAlt := rfl
@[simp] theorem setAf_dAlt (s : State) (v : Word) : (s.setAf v).dAlt = s.dAlt := rfl
@[simp] theorem setAf_eAlt (s : State) (v : Word) : (s.setAf v).eAlt = s.eAlt := rfl
@[simp] theorem setAf_hAlt (s : State) (v : Word) : (s.setAf v).hAlt = s.hAlt := rfl
@[simp] theorem setAf_lAlt (s : State) (v : Word) : (s.setAf v).lAlt = s.lAlt := rfl
@[simp] theorem setAf_ix (s : State) (v : Word) : (s.setAf v).ix = s.ix := rfl
@[simp] theorem setAf_iy (s : State) (v : Word) : (s.setAf v).iy = s.iy := rfl
@[simp] theorem setAf_sp (s : State) (v : Word) : (s.setAf v).sp = s.sp := rfl
@[simp] theorem setAf_pc (s : State) (v : Word) : (s.setAf v).pc = s.pc := rfl
@[simp] theorem setAf_i (s : State) (v : Word) : (s.setAf v).i = s.i := rfl
@[simp] theorem setAf_r (s : State) (v : Word) : (s.setAf v).r = s.r := rfl
@[simp] theorem setAf_memptr (s : State) (v : Word) : (s.setAf v).memptr = s.memptr := rfl
@[simp] theorem setAf_iff1 (s : State) (v : Word) : (s.setAf v).iff1 = s.iff1 := rfl
@[simp] theorem setAf_iff2 (s : State) (v : Word) : (s.setAf v).iff2 = s.iff2 := rfl
@[simp] theorem setAf_im (s : State) (v : Word) : (s.setAf v).im = s.im := rfl
@[simp] theorem setAf_pendingEI (s : State) (v : Word) : (s.setAf v).pendingEI = s.pendingEI := rfl
@[simp] theorem setAf_halted (s : State) (v : Word) : (s.setAf v).halted = s.halted := rfl
@[simp] theorem setAf_nmiPending (s : State) (v : Word) : (s.setAf v).nmiPending = s.nmiPending := rfl
@[simp] theorem setAf_intLine (s : State) (v : Word) : (s.setAf v).intLine = s.intLine := rfl
@[simp] theorem setAf_resetRequest (s : State) (v : Word) : (s.setAf v).resetRequest = s.resetRequest := rfl
@[simp] theorem setAf_q (s : State) (v : Word) : (s.setAf v).q = s.q := rfl
@[simp] theorem setAf_lastQ (s : State) (v : Word) : (s.setAf v).lastQ = s.lastQ := rfl
@[simp] theorem setAf_pfx (s : State) (v : Word) : (s.setAf v).pfx = s.pfx := rfl
@[simp] theorem setAf_breakpoints (s : State) (v : Word) : (s.setAf v).breakpoints = s.breakpoints := rfl
@[simp] theorem setAf_mem (s : State) (v : Word) : (s.setAf v).mem = s.mem := rfl
@[simp] theorem setAf_bus (s : State) (v : Word) : (s.setAf v).bus = s.bus := rfl
@[simp] theorem setAf_portAnswers (s : State) (v : Word) : (s.setAf v).portAnswers = s.portAnswers := rfl
@[simp] theorem setAf_ackAnswers (s : State) (v : Word) : (s.setAf v).ackAnswers = s.ackAnswers := rfl
@[simp] theorem setAf_hookAnswers (s : State) (v : Word) : (s.setAf v).hookAnswers = s.hookAnswers := rfl
@[simp] theorem setAf_draws (s : State) (v : Word) : (s.setAf v).draws = s.draws := rfl
@[simp] theorem setAf_params (s : State) (v : Word) : (s.setAf v).params = s.params := rfl
@[simp] theorem setAf_lastLdAIR (s : State) (v : Word) : (s.setAf v).lastLdAIR = s.lastLdAIR := rfl
@[simp] theorem setAf_kind (s : State) (v : Word) : (s.setAf v).kind = s.kind := rfl

/-! `setAfAlt` -/
@[simp] theorem setAfAlt_a (s : State) (v : Word) : (s.setAfAlt v).a = s.a := rfl
@[simp] theorem setAfAlt_f (s : State) (v : Word) : (s.setAfAlt v).f = s.f := rfl
@[simp] theorem setAfAlt_b (s : State) (v : Word) : (s.setAfAlt v).b = s.b := rfl
@[simp] theorem setAfAlt_c (s : State) (v : Word) : (s.setAfAlt v).c = s.c := rfl
@[simp] theorem setAfAlt_d (s : State) (v : Word) : (s.setAfAlt v).d = s.d := rfl
@[simp] theorem setAfAlt_e (s : State) (v : Word) : (s.setAfAlt v).e = s.e := rfl
@[simp] theorem setAfAlt_h (s : State) (v : Word) : (s.setAfAlt v).h = s.h := rfl
@[simp] theorem setAfAlt_l (s : State) (v : Word) : (s.setAfAlt v).l = s.l := rfl
@[simp] theorem setAfAlt_aAlt (s : State) (v : Word) : (s.setAfAlt v).aAlt = hi v := rfl
@[simp] theorem setAfAlt_fAlt (s : State) (v : Word) : (s.setAfAlt v).fAlt = lo v := rfl
@[simp] theorem setAfAlt_bAlt (s : State) (v : Word) : (s.setAfAlt v).bAlt = s.bAlt := rfl
@[simp] theorem setAfAlt_cAlt (s : State) (v : Word) : (s.setAfAlt v).cAlt = s.cAlt := rfl
@[simp] theorem setAfAlt_dAlt (s : State) (v : Word) : (s.setAfAlt v).dAlt = s.dAlt := rfl
@[simp] theorem setAfAlt_eAlt (s : State) (v : Word) : (s.setAfAlt v).eAlt = s.eAlt := rfl
@[simp] theorem setAfAlt_hAlt (s : State) (v : Word) : (s.setAfAlt v).hAlt = s.hAlt := rfl
@[simp] theorem setAfAlt_lAlt (s : State) (v : Word) : (s.setAfAlt v).lAlt = s.lAlt := rfl
@[simp] theorem setAfAlt_ix (s : State) (v : Word) : (s.setAfAlt v).ix = s.ix := rfl
@[simp] theorem setAfAlt_iy (s : State) (v : Word) : (s.setAfAlt v).iy = s.iy := rfl
@[simp] theorem setAfAlt_sp (s : State) (v : Word) : (s.setAfAlt v).sp = s.sp := rfl
@[simp] theorem setAfAlt_pc (s : State) (v : Word) : (s.setAfAlt v).pc = s.pc := rfl
@[simp] theorem setAfAlt_i (s : State) (v : Word) : (s.setAfAlt v).i = s.i := rfl
@[simp] theorem setAfAlt_r (s : State) (v : Word) : (s.setAfAlt v).r = s.r := rfl
@[simp] theorem setAfAlt_memptr (s : State) (v : Word) : (s.setAfAlt v).memptr = s.memptr := rfl
@[simp] theorem setAfAlt_iff1 (s : State) (v : Word) : (s.setAfAlt v).iff1 = s.iff1 := rfl
@[simp] theorem setAfAlt_iff2 (s : State) (v : Word) : (s.setAfAlt v).iff2 = s.iff2 := rfl
@[simp] theorem setAfAlt_im (s : State) (v : Word) : (s.setAfAlt v).im = s.im := rfl
@[simp] theorem setAfAlt_pendingEI (s : State) (v : Word) : (s.setAfAlt v).pendingEI = s.pendingEI := rfl
@[simp] theorem setAfAlt_halted (s : State) (v : Word) : (s.setAfAlt v).halted = s.halted := rfl
@[simp] theorem setAfAlt_nmiPending (s : State) (v : Word) : (s.setAfAlt v).nmiPending = s.nmiPending := rfl
@[simp] theorem setAfAlt_intLine (s : State) (v : Word) : (s.setAfAlt v).intLine = s.intLine := rfl
@[simp] theorem setAfAlt_resetRequest (s : State) (v : Word) : (s.setAfAlt v).resetRequest = s.resetRequest := rfl
@[simp] theorem setAfAlt_q (s : State) (v : Word) : (s.setAfAlt v).q = s.q := rfl
@[simp] theorem setAfAlt_lastQ (s : State) (v : Word) : (s.setAfAlt v).lastQ = s.lastQ := rfl
@[simp] theorem setAfAlt_pfx (s : State) (v : Word) : (s.setAfAlt v).pfx = s.pfx := rfl
@[simp] theorem setAfAlt_breakpoints (s : State) (v : Word) : (s.setAfAlt v).breakpoints = s.breakpoints := rfl
@[simp] theorem setAfAlt_mem (s : State) (v : Word) : (s.setAfAlt v).mem = s.mem := rfl
@[simp] theorem setAfAlt_bus (s : State) (v : Word) : (s.setAfAlt v).bus = s.bus := rfl
@[simp] theorem setAfAlt_portAnswers (s : State) (v : Word) : (s.setAfAlt v).portAnswers = s.portAnswers := rfl
@[simp] theorem setAfAlt_ackAnswers (s : State) (v : Word) : (s.setAfAlt v).ackAnswers = s.ackAnswers := rfl
@[simp] theorem setAfAlt_hookAnswers (s : State) (v : Word) : (s.setAfAlt v).hookAnswers = s.hookAnswers := rfl
@[simp] theorem setAfAlt_draws (s : State) (v : Word) : (s.setAfAlt v).draws = s.draws := rfl
@[simp] theorem setAfAlt_params (s : State) (v : Word) : (s.setAfAlt v).params = s.params := rfl
@[simp] theorem setAfAlt_lastLdAIR (s : State) (v : Word) : (s.setAfAlt v).lastLdAIR = s.lastLdAIR := rfl
@[simp] theorem setAfAlt_kind (s : State) (v : Word) : (s.setAfAlt v).kind = s.kind := rfl

/-! `setGeneralAlt` -/
@[simp] theorem setGeneralAlt_a (s : State) (v w u : Word) : (s.setGeneralAlt v w u).a = s.a := rfl
@[simp] theorem setGeneralAlt_f (s : State) (v w u : Word) : (s.setGeneralAlt v w u).f = s.f := rfl
@[simp] theorem setGeneralAlt_b (s : State) (v w u : Word) : (s.setGeneralAlt v w u).b = s.b := rfl
@[simp] theorem setGeneralAlt_c (s : State) (v w u : Word) : (s.setGeneralAlt v w u).c = s.c := rfl
@[simp] theorem setGeneralAlt_d (s : State) (v w u : Word) : (s.setGeneralAlt v w u).d = s.d := rfl
@[simp] theorem setGeneralAlt_e (s : State) (v w u : Word) : (s.setGeneralAlt v w u).e = s.e := rfl
@[simp] theorem setGeneralAlt_h (s : State) (v w u : Word) : (s.setGeneralAlt v w u).h = s.h := rfl
@[simp] theorem setGeneralAlt_l (s : State) (v w u : Word) : (s.setGeneralAlt v w u).l = s.l := rfl
@[simp] theorem setGeneralAlt_aAlt (s : State) (v w u : Word) : (s.setGeneralAlt v w u).aAlt = s.aAlt := rfl
@[simp] theorem setGeneralAlt_fAlt (s : State) (v w u : Word) : (s.setGeneralAlt v w u).fAlt = s.fAlt := rfl
@[simp] theorem setGeneralAlt_bAlt (s : State) (v w u : Word) : (s.setGeneralAlt v w u).bAlt = hi v := rfl
@[simp] theorem setGeneralAlt_cAlt (s : State) (v w u : Word) : (s.setGeneralAlt v w u).cAlt = lo v := rfl
@[simp] theorem setGeneralAlt_dAlt (s : State) (v w u : Word) : (s.setGeneralAlt v w u).dAlt = hi w := rfl
@[simp] theorem setGeneralAlt_eAlt (s : State) (v w u : Word) : (s.setGeneralAlt v w u).eAlt = lo w := rfl
@[simp] theorem setGeneralAlt_hAlt (s : State) (v w u : Word) : (s.setGeneralAlt v w u).hAlt = hi u := rfl
@[simp] theorem setGeneralAlt_lAlt (s : State) (v w u : Word) : (s.setGeneralAlt v w u).lAlt = lo u := rfl
@[simp] theorem setGeneralAlt_ix (s : State) (v w u : Word) : (s.setGeneralAlt v w u).ix = s.ix := rfl
@[simp] theorem setGeneralAlt_iy (s : State) (v w u : Word) : (s.setGeneralAlt v w u).iy = s.iy := rfl
@[simp] theorem setGeneralAlt_sp (s : State) (v w u : Word) : (s.setGeneralAlt v w u).sp = s.sp := rfl
@[simp] theorem setGeneralAlt_pc (s : State) (v w u : Word) : (s.setGeneralAlt v w u).pc = s.pc := rfl
@[simp] theorem setGeneralAlt_i (s : State) (v w u : Word) : (s.setGeneralAlt v w u).i = s.i := rfl
@[simp] theorem setGeneralAlt_r (s : State) (v w u : Word) : (s.setGeneralAlt v w u).r = s.r := rfl
@[simp] theorem setGeneralAlt_memptr (s : State) (v w u : Word) : (s.setGeneralAlt v w u).memptr = s.memptr := rfl
@[simp] theorem setGeneralAlt_iff1 (s : State) (v w u : Word) : (s.setGeneralAlt v w u).iff1 = s.iff1 := rfl
@[simp] theorem setGeneralAlt_iff2 (s : State) (v w u : Word) : (s.setGeneralAlt v w u).iff2 = s.iff2 := rfl
@[simp] theorem setGeneralAlt_im (s : State) (v w u : Word) : (s.setGeneralAlt v w u).im = s.im := rfl
@[simp] theorem setGeneralAlt_pendingEI (s : State) (v w u : Word) : (s.setGeneralAlt v w u).pendingEI = s.pendingEI := rfl
@[simp] theorem setGeneralAlt_halted (s : State) (v w u : Word) : (s.setGeneralAlt v w u).halted = s.halted := rfl
@[simp] theorem setGeneralAlt_nmiPending (s : State) (v w u : Word) : (s.setGeneralAlt v w u).nmiPending = s.nmiPending := rfl
@[simp] theorem setGeneralAlt_intLine (s : State) (v w u : Word) : (s.setGeneralAlt v w u).intLine = s.intLine := rfl
@[simp] theorem setGeneralAlt_resetRequest (s : State) (v w u : Word) : (s.setGeneralAlt v w u).resetRequest = s.resetRequest := rfl
@[simp] theorem setGeneralAlt_q (s : State) (v w u : Word) : (s.setGeneralAlt v w u).q = s.q := rfl
@[simp] theorem setGeneralAlt_lastQ (s : State) (v w u : Word) : (s.setGeneralAlt v w u).lastQ = s.lastQ := rfl
@[simp] theorem setGeneralAlt_pfx (s : State) (v w u : Word) : (s.setGeneralAlt v w u).pfx = s.pfx := rfl
@[simp] theorem setGeneralAlt_breakpoints (s : State) (v w u : Word) : (s.setGeneralAlt v w u).breakpoints = s.breakpoints := rfl
@[simp] theorem setGeneralAlt_mem (s : State) (v w u : Word) : (s.setGeneralAlt v w u).mem = s.mem := rfl
@[simp] theorem setGeneralAlt_bus (s : State) (v w u : Word) : (s.setGeneralAlt v w u).bus = s.bus := rfl
@[simp] theorem setGeneralAlt_portAnswers (s : State) (v w u : Word) : (s.setGeneralAlt v w u).portAnswers = s.portAnswers := rfl
@[simp] theorem setGeneralAlt_ackAnswers (s : State) (v w u : Word) : (s.setGeneralAlt v w u).ackAnswers = s.ackAnswers := rfl
@[simp] theorem setGeneralAlt_hookAnswers (s : State) (v w u : Word) : (s.setGeneralAlt v w u).hookAnswers = s.hookAnswers := rfl
@[simp] theorem setGeneralAlt_draws (s : State) (v w u : Word) : (s.setGeneralAlt v w u).draws = s.draws := rfl
@[simp] theorem setGeneralAlt_params (s : State) (v w u : Word) : (s.setGeneralAlt v w u).params = s.params := rfl
@[simp] theorem setGeneralAlt_lastLdAIR (s : State) (v w u : Word) : (s.setGeneralAlt v w u).lastLdAIR = s.lastLdAIR := rfl
@[simp] theorem setGeneralAlt_kind (s : State) (v w u : Word) : (s.setGeneralAlt v w u).kind = s.kind := rfl

/-! `setSp` -/
@[simp] theorem setSp_a (s : State) (v : Word) : (s.setSp v).a = s.a := rfl
@[simp] theorem setSp_f (s : State) (v : Word) : (s.setSp v).f = s.f := rfl
@[simp] theorem setSp_b (s : State) (v : Word) : (s.setSp v).b = s.b := rfl
@[simp] theorem setSp_c (s : State) (v : Word) : (s.setSp v).c = s.c := rfl
@[simp] theorem setSp_d (s : State) (v : Word) : (s.setSp v).d = s.d := rfl
@[simp] theorem setSp_e (s : State) (v : Word) : (s.setSp v).e = s.e := rfl
@[simp] theorem setSp_h (s : State) (v : Word) : (s.setSp v).h = s.h := rfl
@[simp] theorem setSp_l (s : State) (v : Word) : (s.setSp v).l = s.l := rfl
@[simp] theorem setSp_aAlt (s : State) (v : Word) : (s.setSp v).aAlt = s.aAlt := rfl
@[simp] theorem setSp_fAlt (s : State) (v : Word) : (s.setSp v).fAlt = s.fAlt := rfl
@[simp] theorem setSp_bAlt (s : State) (v : Word) : (s.setSp v).bAlt = s.bAlt := rfl
@[simp] theorem setSp_cAlt (s : State) (v : Word) : (s.setSp v).cAlt = s.cAlt := rfl
@[simp] theorem setSp_dAlt (s : State) (v : Word) : (s.setSp v).dAlt = s.dAlt := rfl
@[simp] theorem setSp_eAlt (s : State) (v : Word) : (s.setSp v).eAlt = s.eAlt := rfl
@[simp] theorem setSp_hAlt (s : State) (v : Word) : (s.setSp v).hAlt = s.hAlt := rfl
@[simp] theorem setSp_lAlt (s : State) (v : Word) : (s.setSp v).lAlt = s.lAlt := rfl
@[simp] theorem setSp_ix (s : State) (v : Word) : (s.setSp v).ix = s.ix := rfl
@[simp] theorem setSp_iy (s : State) (v : Word) : (s.setSp v).iy = s.iy := rfl
@[simp] theorem setSp_sp (s : State) (v : Word) : (s.setSp v).sp = v := rfl
@[simp] theorem setSp_pc (s : State) (v : Word) : (s.setSp v).pc = s.pc := rfl
@[simp] theorem setSp_i (s : State) (v : Word) : (s.setSp v).i = s.i := rfl
@[simp] theorem setSp_r (s : State) (v : Word) : (s.setSp v).r = s.r := rfl
@[simp] theorem setSp_memptr (s : State) (v : Word) : (s.setSp v).memptr = s.memptr := rfl
@[simp] theorem setSp_iff1 (s : State) (v : Word) : (s.setSp v).iff1 = s.iff1 := rfl
@[simp] theorem setSp_iff2 (s : State) (v : Word) : (s.setSp v).iff2 = s.iff2 := rfl
@[simp] theorem setSp_im (s : State) (v : Word) : (s.setSp v).im = s.im := rfl
@[simp] theorem setSp_pendingEI (s : State) (v : Word) : (s.setSp v).pendingEI = s.pendingEI := rfl
@[simp] theorem setSp_halted (s : State) (v : Word) : (s.setSp v).halted = s.halted := rfl
@[simp] theorem setSp_nmiPending (s : State) (v : Word) : (s.setSp v).nmiPending = s.nmiPending := rfl
@[simp] theorem setSp_intLine (s : State) (v : Word) : (s.setSp v).intLine = s.intLine := rfl
@[simp] theorem setSp_resetRequest (s : State) (v : Word) : (s.setSp v).resetRequest = s.resetRequest := rfl
@[simp] theorem setSp_q (s : State) (v : Word) : (s.setSp v).q = s.q := rfl
@[simp] theorem setSp_lastQ (s : State) (v : Word) : (s.setSp v).lastQ = s.lastQ := rfl
@[simp] theorem setSp_pfx (s : State) (v : Word) : (s.setSp v).pfx = s.pfx := rfl
@[simp] theorem setSp_breakpoints (s : State) (v : Word) : (s.setSp v).breakpoints = s.breakpoints := rfl
@[simp] theorem setSp_mem (s : State) (v : Word) : (s.setSp v).mem = s.mem := rfl
@[simp] theorem setSp_bus (s : State) (v : Word) : (s.setSp v).bus = s.bus := rfl
@[simp] theorem setSp_portAnswers (s : State) (v : Word) : (s.setSp v).portAnswers = s.portAnswers := rfl
@[simp] theorem setSp_ackAnswers (s : State) (v : Word) : (s.setSp v).ackAnswers = s.ackAnswers := rfl
@[simp] theorem setSp_hookAnswers (s : State) (v : Word) : (s.setSp v).hookAnswers = s.hookAnswers := rfl
@[simp] theorem setSp_draws (s : State) (v : Word) : (s.setSp v).draws = s.draws := rfl
@[simp] theorem setSp_params (s : State) (v : Word) : (s.setSp v).params = s.params := rfl
@[simp] theorem setSp_lastLdAIR (s : State) (v : Word) : (s.setSp v).lastLdAIR = s.lastLdAIR := rfl
@[simp] theorem setSp_kind (s : State) (v : Word) : (s.setSp v).kind = s.kind := rfl

/-! `setPc` -/
@[simp] theorem setPc_a (s : State) (v : Word) : (s.setPc v).a = s.a := rfl
@[simp] theorem setPc_f (s : State) (v : Word) : (s.setPc v).f = s.f := rfl
@[simp] theorem setPc_b (s : State) (v : Word) : (s.setPc v).b = s.b := rfl
@[simp] theorem setPc_c (s : State) (v : Word) : (s.setPc v).c = s.c := rfl
@[simp] theorem setPc_d (s : State) (v : Word) : (s.setPc v).d = s.d := rfl
@[simp] theorem setPc_e (s : State) (v : Word) : (s.setPc v).e = s.e := rfl
@[simp] theorem setPc_h (s : State) (v : Word) : (s.setPc v).h = s.h := rfl
@[simp] theorem setPc_l (s : State) (v : Word) : (s.setPc v).l = s.l := rfl
@[simp] theorem setPc_aAlt (s : State) (v : Word) : (s.setPc v).aAlt = s.aAlt := rfl
@[simp] theorem setPc_fAlt (s : State) (v : Word) : (s.setPc v).fAlt = s.fAlt := rfl
@[simp] theorem setPc_bAlt (s : State) (v : Word) : (s.setPc v).bAlt = s.bAlt := rfl
@[simp] theorem setPc_cAlt (s : State) (v : Word) : (s.setPc v).cAlt = s.cAlt := rfl
@[simp] theorem setPc_dAlt (s : State) (v : Word) : (s.setPc v).dAlt = s.dAlt := rfl
@[simp] theorem setPc_eAlt (s : State) (v : Word) : (s.setPc v).eAlt = s.eAlt := rfl
@[simp] theorem setPc_hAlt (s : State) (v : Word) : (s.setPc v).hAlt = s.hAlt := rfl
@[simp] theorem setPc_lAlt (s : State) (v : Word) : (s.setPc v).lAlt = s.lAlt := rfl
@[simp] theorem setPc_ix (s : State) (v : Word) : (s.setPc v).ix = s.ix := rfl
@[simp] theorem setPc_iy (s : State) (v : Word) : (s.setPc v).iy = s.iy := rfl
@[simp] theorem setPc_sp (s : State) (v : Word) : (s.setPc v).sp = s.sp := rfl
@[simp] theorem setPc_pc (s : State) (v : Word) : (s.setPc v).pc = v := rfl
@[simp] theorem setPc_i (s : State) (v : Word) : (s.setPc v).i = s.i := rfl
@[simp] theorem setPc_r (s : State) (v : Word) : (s.setPc v).r = s.r := rfl
@[simp] theorem setPc_memptr (s : State) (v : Word) : (s.setPc v).memptr = s.memptr := rfl
@[simp] theorem setPc_iff1 (s : State) (v : Word) : (s.setPc v).iff1 = s.iff1 := rfl
@[simp] theorem setPc_iff2 (s : State) (v : Word) : (s.setPc v).iff2 = s.iff2 := rfl
@[simp] theorem setPc_im (s : State) (v : Word) : (s.setPc v).im = s.im := rfl
@[simp] theorem setPc_pendingEI (s : State) (v : Word) : (s.setPc v).pendingEI = s.pendingEI := rfl
@[simp] theorem setPc_halted (s : State) (v : Word) : (s.setPc v).halted = s.halted := rfl
@[simp] theorem setPc_nmiPending (s : State) (v : Word) : (s.setPc v).nmiPending = s.nmiPending := rfl
@[simp] theorem setPc_intLine (s : State) (v : Word) : (s.setPc v).intLine = s.intLine := rfl
@[simp] theorem setPc_resetRequest (s : State) (v : Word) : (s.setPc v).resetRequest = s.resetRequest := rfl
@[simp] theorem setPc_q (s : State) (v : Word) : (s.setPc v).q = s.q := rfl
@[simp] theorem setPc_lastQ (s : State) (v : Word) : (s.setPc v).lastQ = s.lastQ := rfl
@[simp] theorem setPc_pfx (s : State) (v : Word) : (s.setPc v).pfx = s.pfx := rfl
@[simp] theorem setPc_breakpoints (s : State) (v : Word) : (s.setPc v).breakpoints = s.breakpoints := rfl
@[simp] theorem setPc_mem (s : State) (v : Word) : (s.setPc v).mem = s.mem := rfl
@[simp] theorem setPc_bus (s : State) (v : Word) : (s.setPc v).bus = s.bus := rfl
@[simp] theorem setPc_portAnswers (s : State) (v : Word) : (s.setPc v).portAnswers = s.portAnswers := rfl
@[simp] theorem setPc_ackAnswers (s : State) (v : Word) : (s.setPc v).ackAnswers = s.ackAnswers := rfl
@[simp] theorem setPc_hookAnswers (s : State) (v : Word) : (s.setPc v).hookAnswers = s.hookAnswers := rfl
@[simp] theorem setPc_draws (s : State) (v : Word) : (s.setPc v).draws = s.draws := rfl
@[simp] theorem setPc_params (s : State) (v : Word) : (s.setPc v).params = s.params := rfl
@[simp] theorem setPc_lastLdAIR (s : State) (v : Word) : (s.setPc v).lastLdAIR = s.lastLdAIR := rfl
@[simp] theorem setPc_kind (s : State) (v : Word) : (s.setPc v).kind = s.kind := rfl

/-! `setMemptr` -/
@[simp] theorem setMemptr_a (s : State) (v : Word) : (s.setMemptr v).a = s.a := rfl
@[simp] theorem setMemptr_f (s : State) (v : Word) : (s.setMemptr v).f = s.f := rfl
@[simp] theorem setMemptr_b (s : State) (v : Word) : (s.setMemptr v).b = s.b := rfl
@[simp] theorem setMemptr_c (s : State) (v : Word) : (s.setMemptr v).c = s.c := rfl
@[simp] theorem setMemptr_d (s : State) (v : Word) : (s.setMemptr v).d = s.d := rfl
@[simp] theorem setMemptr_e (s : State) (v : Word) : (s.setMemptr v).e = s.e := rfl
@[simp] theorem setMemptr_h (s : State) (v : Word) : (s.setMemptr v).h = s.h := rfl
@[simp] theorem setMemptr_l (s : State) (v : Word) : (s.setMemptr v).l = s.l := rfl
@[simp] theorem setMemptr_aAlt (s : State) (v : Word) : (s.setMemptr v).aAlt = s.aAlt := rfl
@[simp] theorem setMemptr_fAlt (s : State) (v : Word) : (s.setMemptr v).fAlt = s.fAlt := rfl
@[simp] theorem setMemptr_bAlt (s : State) (v : Word) : (s.setMemptr v).bAlt = s.bAlt := rfl
@[simp] theorem setMemptr_cAlt (s : State) (v : Word) : (s.setMemptr v).cAlt = s.cAlt := rfl
@[simp] theorem setMemptr_dAlt (s : State) (v : Word) : (s.setMemptr v).dAlt = s.dAlt := rfl
@[simp] theorem setMemptr_eAlt (s : State) (v : Word) : (s.setMemptr v).eAlt = s.eAlt := rfl
@[simp] theorem setMemptr_hAlt (s : State) (v : Word) : (s.setMemptr v).hAlt = s.hAlt := rfl
@[simp] theorem setMemptr_lAlt (s : State) (v : Word) : (s.setMemptr v).lAlt = s.lAlt := rfl
@[simp] theorem setMemptr_ix (s : State) (v : Word) : (s.setMemptr v).ix = s.ix := rfl
@[simp] theorem setMemptr_iy (s : State) (v : Word) : (s.setMemptr v).iy = s.iy := rfl
@[simp] theorem setMemptr_sp (s : State) (v : Word) : (s.setMemptr v).sp = s.sp := rfl
@[simp] theorem setMemptr_pc (s : State) (v : Word) : (s.setMemptr v).pc = s.pc := rfl
@[simp] theorem setMemptr_i (s : State) (v : Word) : (s.setMemptr v).i = s.i := rfl
@[simp] theorem setMemptr_r (s : State) (v : Word) : (s.setMemptr v).r = s.r := rfl
@[simp] theorem setMemptr_memptr (s : State) (v : Word) : (s.setMemptr v).memptr = v := rfl
@[simp] theorem setMemptr_iff1 (s : State) (v : Word) : (s.setMemptr v).iff1 = s.iff1 := rfl
@[simp] theorem setMemptr_iff2 (s : State) (v : Word) : (s.setMemptr v).iff2 = s.iff2 := rfl
@[simp] theorem setMemptr_im (s : State) (v : Word) : (s.setMemptr v).im = s.im := rfl
@[simp] theorem setMemptr_pendingEI (s : State) (v : Word) : (s.setMemptr v).pendingEI = s.pendingEI := rfl
@[simp] theorem setMemptr_halted (s : State) (v : Word) : (s.setMemptr v).halted = s.halted := rfl
@[simp] theorem setMemptr_nmiPending (s : State) (v : Word) : (s.setMemptr v).nmiPending = s.nmiPending := rfl
@[simp] theorem setMemptr_intLine (s : State) (v : Word) : (s.setMemptr v).intLine = s.intLine := rfl
@[simp] theorem setMemptr_resetRequest (s : State) (v : Word) : (s.setMemptr v).resetRequest = s.resetRequest := rfl
@[simp] theorem setMemptr_q (s : State) (v : Word) : (s.setMemptr v).q = s.q := rfl
@[simp] theorem setMemptr_lastQ (s : State) (v : Word) : (s.setMemptr v).lastQ = s.lastQ := rfl
@[simp] theorem setMemptr_pfx (s : State) (v : Word) : (s.setMemptr v).pfx = s.pfx := rfl
@[simp] theorem setMemptr_breakpoints (s : State) (v : Word) : (s.setMemptr v).breakpoints = s.breakpoints := rfl
@[simp] theorem setMemptr_mem (s : State) (v : Word) : (s.setMemptr v).mem = s.mem := rfl
@[simp] theorem setMemptr_bus (s : State) (v : Word) : (s.setMemptr v).bus = s.bus := rfl
@[simp] theorem setMemptr_portAnswers (s : State) (v : Word) : (s.setMemptr v).portAnswers = s.portAnswers := rfl
@[simp] theorem setMemptr_ackAnswers (s : State) (v : Word) : (s.setMemptr v).ackAnswers = s.ackAnswers := rfl
@[simp] theorem setMemptr_hookAnswers (s : State) (v : Word) : (s.setMemptr v).hookAnswers = s.hookAnswers := rfl
@[simp] theorem setMemptr_draws (s : State) (v : Word) : (s.setMemptr v).draws = s.draws := rfl
@[simp] theorem setMemptr_params (s : State) (v : Word) : (s.setMemptr v).params = s.params := rfl
@[simp] theorem setMemptr_lastLdAIR (s : State) (v : Word) : (s.setMemptr v).lastLdAIR = s.lastLdAIR := rfl
@[simp] theorem setMemptr_kind (s : State) (v : Word) : (s.setMemptr v).kind = s.kind := rfl

/-! `writeF` -/
@[simp] theorem writeF_a (s : State) (v : Byte) : (s.writeF v).a = s.a := rfl
@[simp] theorem writeF_f (s : State) (v : Byte) : (s.writeF v).f = v := rfl
@[simp] theorem writeF_b (s : State) (v : Byte) : (s.writeF v).b = s.b := rfl
@[simp] theorem writeF_c (s : State) (v : Byte) : (s.writeF v).c = s.c := rfl
@[simp] theorem writeF_d (s : State) (v : Byte) : (s.writeF v).d = s.d := rfl
@[simp] theorem writeF_e (s : State) (v : Byte) : (s.writeF v).e = s.e := rfl
@[simp] theorem writeF_h (s : State) (v : Byte) : (s.writeF v).h = s.h := rfl
@[simp] theorem writeF_l (s : State) (v : Byte) : (s.writeF v).l = s.l := rfl
@[simp] theorem writeF_aAlt (s : State) (v : Byte) : (s.writeF v).aAlt = s.aAlt := rfl
@[simp] theorem writeF_fAlt (s : State) (v : Byte) : (s.writeF v).fAlt = s.fAlt := rfl
@[simp] theorem writeF_bAlt (s : State) (v : Byte) : (s.writeF v).bAlt = s.bAlt := rfl
@[simp] theorem writeF_cAlt (s : State) (v : Byte) : (s.writeF v).cAlt = s.cAlt := rfl
@[simp] theorem writeF_dAlt (s : State) (v : Byte) : (s.writeF v).dAlt = s.dAlt := rfl
@[simp] theorem writeF_eAlt (s : State) (v : Byte) : (s.writeF v).eAlt = s.eAlt := rfl
@[simp] theorem writeF_hAlt (s : State) (v : Byte) : (s.writeF v).hAlt = s.hAlt := rfl
@[simp] theorem writeF_lAlt (s : State) (v : Byte) : (s.writeF v).lAlt = s.lAlt := rfl
@[simp] theorem writeF_ix (s : State) (v : Byte) : (s.writeF v).ix = s.ix := rfl
@[simp] theorem writeF_iy (s : State) (v : Byte) : (s.writeF v).iy = s.iy := rfl
@[simp] theorem writeF_sp (s : State) (v : Byte) : (s.writeF v).sp = s.sp := rfl
@[simp] theorem writeF_pc (s : State) (v : Byte) : (s.writeF v).pc = s.pc := rfl
@[simp] theorem writeF_i (s : State) (v : Byte) : (s.writeF v).i = s.i := rfl
@[simp] theorem writeF_r (s : State) (v : Byte) : (s.writeF v).r = s.r := rfl
@[simp] theorem writeF_memptr (s : State) (v : Byte) : (s.writeF v).memptr = s.memptr := rfl
@[simp] theorem writeF_iff1 (s : State) (v : Byte) : (s.writeF v).iff1 = s.iff1 := rfl
@[simp] theorem writeF_iff2 (s : State) (v : Byte) : (s.writeF v).iff2 = s.iff2 := rfl
@[simp] theorem writeF_im (s : State) (v : Byte) : (s.writeF v).im = s.im := rfl
@[simp] theorem writeF_pendingEI (s : State) (v : Byte) : (s.writeF v).pendingEI = s.pendingEI := rfl
@[simp] theorem writeF_halted (s : State) (v : Byte) : (s.writeF v).halted = s.halted := rfl
@[simp] theorem writeF_nmiPending (s : State) (v : Byte) : (s.writeF v).nmiPending = s.nmiPending := rfl
@[simp] theorem writeF_intLine (s : State) (v : Byte) : (s.writeF v).intLine = s.intLine := rfl
@[simp] theorem writeF_resetRequest (s : State) (v : Byte) : (s.writeF v).resetRequest = s.resetRequest := rfl
@[simp] theorem writeF_q (s : State) (v : Byte) : (s.writeF v).q = true := rfl
@[simp] theorem writeF_lastQ (s : State) (v : Byte) : (s.writeF v).lastQ = s.lastQ := rfl
@[simp] theorem writeF_pfx (s : State) (v : Byte) : (s.writeF v).pfx = s.pfx := rfl
@[simp] theorem writeF_breakpoints (s : State) (v : Byte) : (s.writeF v).breakpoints = s.breakpoints := rfl
@[simp] theorem writeF_mem (s : State) (v : Byte) : (s.writeF v).mem = s.mem := rfl
@[simp] theorem writeF_bus (s : State) (v : Byte) : (s.writeF v).bus = s.bus := rfl
@[simp] theorem writeF_portAnswers (s : State) (v : Byte) : (s.writeF v).portAnswers = s.portAnswers := rfl
@[simp] theorem writeF_ackAnswers (s : State) (v : Byte) : (s.writeF v).ackAnswers = s.ackAnswers := rfl
@[simp] theorem writeF_hookAnswers (s : State) (v : Byte) : (s.writeF v).hookAnswers = s.hookAnswers := rfl
@[simp] theorem writeF_draws (s : State) (v : Byte) : (s.writeF v).draws = s.draws := rfl
@[simp] theorem writeF_params (s : State) (v : Byte) : (s.writeF v).params = s.params := rfl
@[simp] theorem writeF_lastLdAIR (s : State) (v : Byte) : (s.writeF v).lastLdAIR = s.lastLdAIR := rfl
@[simp] theorem writeF_kind (s : State) (v : Byte) : (s.writeF v).kind = s.kind := rfl

/-! `markQOnPopExAF` -/
@[simp] theorem markQOnPopExAF_a (s : State) : (s.markQOnPopExAF).a = s.a := rfl
@[simp] theorem markQOnPopExAF_f (s : State) : (s.markQOnPopExAF).f = s.f := rfl
@[simp] theorem markQOnPopExAF_b (s : State) : (s.markQOnPopExAF).b = s.b := rfl
@[simp] theorem markQOnPopExAF_c (s : State) : (s.markQOnPopExAF).c = s.c := rfl
@[simp] theorem markQOnPopExAF_d (s : State) : (s.markQOnPopExAF).d = s.d := rfl
@[simp] theorem markQOnPopExAF_e (s : State) : (s.markQOnPopExAF).e = s.e := rfl
@[simp] theorem markQOnPopExAF_h (s : State) : (s.markQOnPopExAF).h = s.h := rfl
@[simp] theorem markQOnPopExAF_l (s : State) : (s.markQOnPopExAF).l = s.l := rfl
@[simp] theorem markQOnPopExAF_aAlt (s : State) : (s.markQOnPopExAF).aAlt = s.aAlt := rfl
@[simp] theorem markQOnPopExAF_fAlt (s : State) : (s.markQOnPopExAF).fAlt = s.fAlt := rfl
@[simp] theorem markQOnPopExAF_bAlt (s : State) : (s.markQOnPopExAF).bAlt = s.bAlt := rfl
@[simp] theorem markQOnPopExAF_cAlt (s : State) : (s.markQOnPopExAF).cAlt = s.cAlt := rfl
@[simp] theorem markQOnPopExAF_dAlt (s : State) : (s.markQOnPopExAF).dAlt = s.dAlt := rfl
@[simp] theorem markQOnPopExAF_eAlt (s : State) : (s.markQOnPopExAF).eAlt = s.eAlt := rfl
@[simp] theorem markQOnPopExAF_hAlt (s : State) : (s.markQOnPopExAF).hAlt = s.hAlt := rfl
@[simp] theorem markQOnPopExAF_lAlt (s : State) : (s.markQOnPopExAF).lAlt = s.lAlt := rfl
@[simp] theorem markQOnPopExAF_ix (s : State) : (s.markQOnPopExAF).ix = s.ix := rfl
@[simp] theorem markQOnPopExAF_iy (s : State) : (s.markQOnPopExAF).iy = s.iy := rfl
@[simp] theorem markQOnPopExAF_sp (s : State) : (s.markQOnPopExAF).sp = s.sp := rfl
@[simp] theorem markQOnPopExAF_pc (s : State) : (s.markQOnPopExAF).pc = s.pc := rfl
@[simp] theorem markQOnPopExAF_i (s : State) : (s.markQOnPopExAF).i = s.i := rfl
@[simp] theorem markQOnPopExAF_r (s : State) : (s.markQOnPopExAF).r = s.r := rfl
@[simp] theorem markQOnPopExAF_memptr (s : State) : (s.markQOnPopExAF).memptr = s.memptr := rfl
@[simp] theorem markQOnPopExAF_iff1 (s : State) : (s.markQOnPopExAF).iff1 = s.iff1 := rfl
@[simp] theorem markQOnPopExAF_iff2 (s : State) : (s.markQOnPopExAF).iff2 = s.iff2 := rfl
@[simp] theorem markQOnPopExAF_im (s : State) : (s.markQOnPopExAF).im = s.im := rfl
@[simp] theorem markQOnPopExAF_pendingEI (s : State) : (s.markQOnPopExAF).pendingEI = s.pendingEI := rfl
@[simp] theorem markQOnPopExAF_halted (s : State) : (s.markQOnPopExAF).halted = s.halted := rfl
@[simp] theorem markQOnPopExAF_nmiPending (s : State) : (s.markQOnPopExAF).nmiPending = s.nmiPending := rfl
@[simp] theorem markQOnPopExAF_intLine (s : State) : (s.markQOnPopExAF).intLine = s.intLine := rfl
@[simp] theorem markQOnPopExAF_resetRequest (s : State) : (s.markQOnPopExAF).resetRequest = s.resetRequest := rfl
@[simp] theorem markQOnPopExAF_q (s : State) : (s.markQOnPopExAF).q = (s.q || s.params.qOnPopExAF) := rfl
@[simp] theorem markQOnPopExAF_lastQ (s : State) : (s.markQOnPopExAF).lastQ = s.lastQ := rfl
@[simp] theorem markQOnPopExAF_pfx (s : State) : (s.markQOnPopExAF).pfx = s.pfx := rfl
@[simp] theorem markQOnPopExAF_breakpoints (s : State) : (s.markQOnPopExAF).breakpoints = s.breakpoints := rfl
@[simp] theorem markQOnPopExAF_mem (s : State) : (s.markQOnPopExAF).mem = s.mem := rfl
@[simp] theorem markQOnPopExAF_bus (s : State) : (s.markQOnPopExAF).bus = s.bus := rfl
@[simp] theorem markQOnPopExAF_portAnswers (s : State) : (s.markQOnPopExAF).portAnswers = s.portAnswers := rfl
@[simp] theorem markQOnPopExAF_ackAnswers (s : State) : (s.markQOnPopExAF).ackAnswers = s.ackAnswers := rfl
@[simp] theorem markQOnPopExAF_hookAnswers (s : State) : (s.markQOnPopExAF).hookAnswers = s.hookAnswers := rfl
@[simp] theorem markQOnPopExAF_draws (s : State) : (s.markQOnPopExAF).draws = s.draws := rfl
@[simp] theorem markQOnPopExAF_params (s : State) : (s.markQOnPopExAF).params = s.params := rfl
@[simp] theorem markQOnPopExAF_lastLdAIR (s : State) : (s.markQOnPopExAF).lastLdAIR = s.lastLdAIR := rfl
@[simp] theorem markQOnPopExAF_kind (s : State) : (s.markQOnPopExAF).kind = s.kind := rfl

/-! `incR` -/
@[simp] theorem incR_a (s : State) : (s.incR).a = s.a := rfl
@[simp] theorem incR_f (s : State) : (s.incR).f = s.f := rfl
@[simp] theorem incR_b (s : State) : (s.incR).b = s.b := rfl
@[simp] theorem incR_c (s : State) : (s.incR).c = s.c := rfl
@[simp] theorem incR_d (s : State) : (s.incR).d = s.d := rfl
@[simp] theorem incR_e (s : State) : (s.incR).e = s.e := rfl
@[simp] theorem incR_h (s : State) : (s.incR).h = s.h := rfl
@[simp] theorem incR_l (s : State) : (s.incR).l = s.l := rfl
@[simp] theorem incR_aAlt (s : State) : (s.incR).aAlt = s.aAlt := rfl
@[simp] theorem incR_fAlt (s : State) : (s.incR).fAlt = s.fAlt := rfl
@[simp] theorem incR_bAlt (s : State) : (s.incR).bAlt = s.bAlt := rfl
@[simp] theorem incR_cAlt (s : State) : (s.incR).cAlt = s.cAlt := rfl
@[simp] theorem incR_dAlt (s : State) : (s.incR).dAlt = s.dAlt := rfl
@[simp] theorem incR_eAlt (s : State) : (s.incR).eAlt = s.eAlt := rfl
@[simp] theorem incR_hAlt (s : State) : (s.incR).hAlt = s.hAlt := rfl
@[simp] theorem incR_lAlt (s : State) : (s.incR).lAlt = s.lAlt := rfl
@[simp] theorem incR_ix (s : State) : (s.incR).ix = s.ix := rfl
@[simp] theorem incR_iy (s : State) : (s.incR).iy = s.iy := rfl
@[simp] theorem incR_sp (s : State) : (s.incR).sp = s.sp := rfl
@[simp] theorem incR_pc (s : State) : (s.incR).pc = s.pc := rfl
@[simp] theorem incR_i (s : State) : (s.incR).i = s.i := rfl
@[simp] theorem incR_r (s : State) : (s.incR).r = ((s.r &&& 0x80#8) ||| ((s.r + 1#8) &&& 0x7F#8)) := rfl
@[simp] theorem incR_memptr (s : State) : (s.incR).memptr = s.memptr := rfl
@[simp] theorem incR_iff1 (s : State) : (s.incR).iff1 = s.iff1 := rfl
@[simp] theorem incR_iff2 (s : State) : (s.incR).iff2 = s.iff2 := rfl
@[simp] theorem incR_im (s : State) : (s.incR).im = s.im := rfl
@[simp] theorem incR_pendingEI (s : State) : (s.incR).pendingEI = s.pendingEI := rfl
@[simp] theorem incR_halted (s : State) : (s.incR).halted = s.halted := rfl
@[simp] theorem incR_nmiPending (s : State) : (s.incR).nmiPending = s.nmiPending := rfl
@[simp] theorem incR_intLine (s : State) : (s.incR).intLine = s.intLine := rfl
@[simp] theorem incR_resetRequest (s : State) : (s.incR).resetRequest = s.resetRequest := rfl
@[simp] theorem incR_q (s : State) : (s.incR).q = s.q := rfl
@[simp] theorem incR_lastQ (s : State) : (s.incR).lastQ = s.lastQ := rfl
@[simp] theorem incR_pfx (s : State) : (s.incR).pfx = s.pfx := rfl
@[simp] theorem incR_breakpoints (s : State) : (s.incR).breakpoints = s.breakpoints := rfl
@[simp] theorem incR_mem (s : State) : (s.incR).mem = s.mem := rfl
@[simp] theorem incR_bus (s : State) : (s.incR).bus = s.bus := rfl
@[simp] theorem incR_portAnswers (s : State) : (s.incR).portAnswers = s.portAnswers := rfl
@[simp] theorem incR_ackAnswers (s : State) : (s.incR).ackAnswers = s.ackAnswers := rfl
@[simp] theorem incR_hookAnswers (s : State) : (s.incR).hookAnswers = s.hookAnswers := rfl
@[simp] theorem incR_draws (s : State) : (s.incR).draws = s.draws := rfl
@[simp] theorem incR_params (s : State) : (s.incR).params = s.params := rfl
@[simp] theorem incR_lastLdAIR (s : State) : (s.incR).lastLdAIR = s.lastLdAIR := rfl
@[simp] theorem incR_kind (s : State) : (s.incR).kind = s.kind := rfl

/-! `setI` -/
@[simp] theorem setI_a (s : State) (v : Byte) : (s.setI v).a = s.a := rfl
@[simp] theorem setI_f (s : State) (v : Byte) : (s.setI v).f = s.f := rfl
@[simp] theorem setI_b (s : State) (v : Byte) : (s.setI v).b = s.b := rfl
@[simp] theorem setI_c (s : State) (v : Byte) : (s.setI v).c = s.c := rfl
@[simp] theorem setI_d (s : State) (v : Byte) : (s.setI v).d = s.d := rfl
@[simp] theorem setI_e (s : State) (v : Byte) : (s.setI v).e = s.e := rfl
@[simp] theorem setI_h (s : State) (v : Byte) : (s.setI v).h = s.h := rfl
@[simp] theorem setI_l (s : State) (v : Byte) : (s.setI v).l = s.l := rfl
@[simp] theorem setI_aAlt (s : State) (v : Byte) : (s.setI v).aAlt = s.aAlt := rfl
@[simp] theorem setI_fAlt (s : State) (v : Byte) : (s.setI v).fAlt = s.fAlt := rfl
@[simp] theorem setI_bAlt (s : State) (v : Byte) : (s.setI v).bAlt = s.bAlt := rfl
@[simp] theorem setI_cAlt (s : State) (v : Byte) : (s.setI v).cAlt = s.cAlt := rfl
@[simp] theorem setI_dAlt (s : State) (v : Byte) : (s.setI v).dAlt = s.dAlt := rfl
@[simp] theorem setI_eAlt (s : State) (v : Byte) : (s.setI v).eAlt = s.eAlt := rfl
@[simp] theorem setI_hAlt (s : State) (v : Byte) : (s.setI v).hAlt = s.hAlt := rfl
@[simp] theorem setI_lAlt (s : State) (v : Byte) : (s.setI v).lAlt = s.lAlt := rfl
@[simp] theorem setI_ix (s : State) (v : Byte) : (s.setI v).ix = s.ix := rfl
@[simp] theorem setI_iy (s : State) (v : Byte) : (s.setI v).iy = s.iy := rfl
@[simp] theorem setI_sp (s : State) (v : Byte) : (s.setI v).sp = s.sp := rfl
@[simp] theorem setI_pc (s : State) (v : Byte) : (s.setI v).pc = s.pc := rfl
@[simp] theorem setI_i (s : State) (v : Byte) : (s.setI v).i = v := rfl
@[simp] theorem setI_r (s : State) (v : Byte) : (s.setI v).r = s.r := rfl
@[simp] theorem setI_memptr (s : State) (v : Byte) : (s.setI v).memptr = s.memptr := rfl
@[simp] theorem setI_iff1 (s : State) (v : Byte) : (s.setI v).iff1 = s.iff1 := rfl
@[simp] theorem setI_iff2 (s : State) (v : Byte) : (s.setI v).iff2 = s.iff2 := rfl
@[simp] theorem setI_im (s : State) (v : Byte) : (s.setI v).im = s.im := rfl
@[simp] theorem setI_pendingEI (s : State) (v : Byte) : (s.setI v).pendingEI = s.pendingEI := rfl
@[simp] theorem setI_halted (s : State) (v : Byte) : (s.setI v).halted = s.halted := rfl
@[simp] theorem setI_nmiPending (s : State) (v : Byte) : (s.setI v).nmiPending = s.nmiPending := rfl
@[simp] theorem setI_intLine (s : State) (v : Byte) : (s.setI v).intLine = s.intLine := rfl
@[simp] theorem setI_resetRequest (s : State) (v : Byte) : (s.setI v).resetRequest = s.resetRequest := rfl
@[simp] theorem setI_q (s : State) (v : Byte) : (s.setI v).q = s.q := rfl
@[simp] theorem setI_lastQ (s : State) (v : Byte) : (s.setI v).lastQ = s.lastQ := rfl
@[simp] theorem setI_pfx (s : State) (v : Byte) : (s.setI v).pfx = s.pfx := rfl
@[simp] theorem setI_breakpoints (s : State) (v : Byte) : (s.setI v).breakpoints = s.breakpoints := rfl
@[simp] theorem setI_mem (s : State) (v : Byte) : (s.setI v).mem = s.mem := rfl
@[simp] theorem setI_bus (s : State) (v : Byte) : (s.setI v).bus = s.bus := rfl
@[simp] theorem setI_portAnswers (s : State) (v : Byte) : (s.setI v).portAnswers = s.portAnswers := rfl
@[simp] theorem setI_ackAnswers (s : State) (v : Byte) : (s.setI v).ackAnswers = s.ackAnswers := rfl
@[simp] theorem setI_hookAnswers (s : State) (v : Byte) : (s.setI v).hookAnswers = s.hookAnswers := rfl
@[simp] theorem setI_draws (s : State) (v : Byte) : (s.setI v).draws = s.draws := rfl
@[simp] theorem setI_params (s : State) (v : Byte) : (s.setI v).params = s.params := rfl
@[simp] theorem setI_lastLdAIR (s : State) (v : Byte) : (s.setI v).lastLdAIR = s.lastLdAIR := rfl
@[simp] theorem setI_kind (s : State) (v : Byte) : (s.setI v).kind = s.kind := rfl

/-! `setR` -/
@[simp] theorem setR_a (s : State) (v : Byte) : (s.setR v).a = s.a := rfl
@[simp] theorem setR_f (s : State) (v : Byte) : (s.setR v).f = s.f := rfl
@[simp] theorem setR_b (s : State) (v : Byte) : (s.setR v).b = s.b := rfl
@[simp] theorem setR_c (s : State) (v : Byte) : (s.setR v).c = s.c := rfl
@[simp] theorem setR_d (s : State) (v : Byte) : (s.setR v).d = s.d := rfl
@[simp] theorem setR_e (s : State) (v : Byte) : (s.setR v).e = s.e := rfl
@[simp] theorem setR_h (s : State) (v : Byte) : (s.setR v).h = s.h := rfl
@[simp] theorem setR_l (s : State) (v : Byte) : (s.setR v).l = s.l := rfl
@[simp] theorem setR_aAlt (s : State) (v : Byte) : (s.setR v).aAlt = s.aAlt := rfl
@[simp] theorem setR_fAlt (s : State) (v : Byte) : (s.setR v).fAlt = s.fAlt := rfl
@[simp] theorem setR_bAlt (s : State) (v : Byte) : (s.setR v).bAlt = s.bAlt := rfl
@[simp] theorem setR_cAlt (s : State) (v : Byte) : (s.setR v).cAlt = s.cAlt := rfl
@[simp] theorem setR_dAlt (s : State) (v : Byte) : (s.setR v).dAlt = s.dAlt := rfl
@[simp] theorem setR_eAlt (s : State) (v : Byte) : (s.setR v).eAlt = s.eAlt := rfl
@[simp] theorem setR_hAlt (s : State) (v : Byte) : (s.setR v).hAlt = s.hAlt := rfl
@[simp] theorem setR_lAlt (s : State) (v : Byte) : (s.setR v).lAlt = s.lAlt := rfl
@[simp] theorem setR_ix (s : State) (v : Byte) : (s.setR v).ix = s.ix := rfl
@[simp] theorem setR_iy (s : State) (v : Byte) : (s.setR v).iy = s.iy := rfl
@[simp] theorem setR_sp (s : State) (v : Byte) : (s.setR v).sp = s.sp := rfl
@[simp] theorem setR_pc (s : State) (v : Byte) : (s.setR v).pc = s.pc := rfl
@[simp] theorem setR_i (s : State) (v : Byte) : (s.setR v).i = s.i := rfl
@[simp] theorem setR_r (s : State) (v : Byte) : (s.setR v).r = v := rfl
@[simp] theorem setR_memptr (s : State) (v : Byte) : (s.setR v).memptr = s.memptr := rfl
@[simp] theorem setR_iff1 (s : State) (v : Byte) : (s.setR v).iff1 = s.iff1 := rfl
@[simp] theorem setR_iff2 (s : State) (v : Byte) : (s.setR v).iff2 = s.iff2 := rfl
@[simp] theorem setR_im (s : State) (v : Byte) : (s.setR v).im = s.im := rfl
@[simp] theorem setR_pendingEI (s : State) (v : Byte) : (s.setR v).pendingEI = s.pendingEI := rfl
@[simp] theorem setR_halted (s : State) (v : Byte) : (s.setR v).halted = s.halted := rfl
@[simp] theorem setR_nmiPending (s : State) (v : Byte) : (s.setR v).nmiPending = s.nmiPending := rfl
@[simp] theorem setR_intLine (s : State) (v : Byte) : (s.setR v).intLine = s.intLine := rfl
@[simp] theorem setR_resetRequest (s : State) (v : Byte) : (s.setR v).resetRequest = s.resetRequest := rfl
@[simp] theorem setR_q (s : State) (v : Byte) : (s.setR v).q = s.q := rfl
@[simp] theorem setR_lastQ (s : State) (v : Byte) : (s.setR v).lastQ = s.lastQ := rfl
@[simp] theorem setR_pfx (s : State) (v : Byte) : (s.setR v).pfx = s.pfx := rfl
@[simp] theorem setR_breakpoints (s : State) (v : Byte) : (s.setR v).breakpoints = s.breakpoints := rfl
@[simp] theorem setR_mem (s : State) (v : Byte) : (s.setR v).mem = s.mem := rfl
@[simp] theorem setR_bus (s : State) (v : Byte) : (s.setR v).bus = s.bus := rfl
@[simp] theorem setR_portAnswers (s : State) (v : Byte) : (s.setR v).portAnswers = s.portAnswers := rfl
@[simp] theorem setR_ackAnswers (s : State) (v : Byte) : (s.setR v).ackAnswers = s.ackAnswers := rfl
@[simp] theorem setR_hookAnswers (s : State) (v : Byte) : (s.setR v).hookAnswers = s.hookAnswers := rfl
@[simp] theorem setR_draws (s : State) (v : Byte) : (s.setR v).draws = s.draws := rfl
@[simp] theorem setR_params (s : State) (v : Byte) : (s.setR v).params = s.params := rfl
@[simp] theorem setR_lastLdAIR (s : State) (v : Byte) : (s.setR v).lastLdAIR = s.lastLdAIR := rfl
@[simp] theorem setR_kind (s : State) (v : Byte) : (s.setR v).kind = s.kind := rfl

/-! `setIffs` -/
@[simp] theorem setIffs_a (s : State) (v w : Bool) : (s.setIffs v w).a = s.a := rfl
@[simp] theorem setIffs_f (s : State) (v w : Bool) : (s.setIffs v w).f = s.f := rfl
@[simp] theorem setIffs_b (s : State) (v w : Bool) : (s.setIffs v w).b = s.b := rfl
@[simp] theorem setIffs_c (s : State) (v w : Bool) : (s.setIffs v w).c = s.c := rfl
@[simp] theorem setIffs_d (s : State) (v w : Bool) : (s.setIffs v w).d = s.d := rfl
@[simp] theorem setIffs_e (s : State) (v w : Bool) : (s.setIffs v w).e = s.e := rfl
@[simp] theorem setIffs_h (s : State) (v w : Bool) : (s.setIffs v w).h = s.h := rfl
@[simp] theorem setIffs_l (s : State) (v w : Bool) : (s.setIffs v w).l = s.l := rfl
@[simp] theorem setIffs_aAlt (s : State) (v w : Bool) : (s.setIffs v w).aAlt = s.aAlt := rfl
@[simp] theorem setIffs_fAlt (s : State) (v w : Bool) : (s.setIffs v w).fAlt = s.fAlt := rfl
@[simp] theorem setIffs_bAlt (s : State) (v w : Bool) : (s.setIffs v w).bAlt = s.bAlt := rfl
@[simp] theorem setIffs_cAlt (s : State) (v w : Bool) : (s.setIffs v w).cAlt = s.cAlt := rfl
@[simp] theorem setIffs_dAlt (s : State) (v w : Bool) : (s.setIffs v w).dAlt = s.dAlt := rfl
@[simp] theorem setIffs_eAlt (s : State) (v w : Bool) : (s.setIffs v w).eAlt = s.eAlt := rfl
@[simp] theorem setIffs_hAlt (s : State) (v w : Bool) : (s.setIffs v w).hAlt = s.hAlt := rfl
@[simp] theorem setIffs_lAlt (s : State) (v w : Bool) : (s.setIffs v w).lAlt = s.lAlt := rfl
@[simp] theorem setIffs_ix (s : State) (v w : Bool) : (s.setIffs v w).ix = s.ix := rfl
@[simp] theorem setIffs_iy (s : State) (v w : Bool) : (s.setIffs v w).iy = s.iy := rfl
@[simp] theorem setIffs_sp (s : State) (v w : Bool) : (s.setIffs v w).sp = s.sp := rfl
@[simp] theorem setIffs_pc (s : State) (v w : Bool) : (s.setIffs v w).pc = s.pc := rfl
@[simp] theorem setIffs_i (s : State) (v w : Bool) : (s.setIffs v w).i = s.i := rfl
@[simp] theorem setIffs_r (s : State) (v w : Bool) : (s.setIffs v w).r = s.r := rfl
@[simp] theorem setIffs_memptr (s : State) (v w : Bool) : (s.setIffs v w).memptr = s.memptr := rfl
@[simp] theorem setIffs_iff1 (s : State) (v w : Bool) : (s.setIffs v w).iff1 = v := rfl
@[simp] theorem setIffs_iff2 (s : State) (v w : Bool) : (s.setIffs v w).iff2 = w := rfl
@[simp] theorem setIffs_im (s : State) (v w : Bool) : (s.setIffs v w).im = s.im := rfl
@[simp] theorem setIffs_pendingEI (s : State) (v w : Bool) : (s.setIffs v w).pendingEI = s.pendingEI := rfl
@[simp] theorem setIffs_halted (s : State) (v w : Bool) : (s.setIffs v w).halted = s.halted := rfl
@[simp] theorem setIffs_nmiPending (s : State) (v w : Bool) : (s.setIffs v w).nmiPending = s.nmiPending := rfl
@[simp] theorem setIffs_intLine (s : State) (v w : Bool) : (s.setIffs v w).intLine = s.intLine := rfl
@[simp] theorem setIffs_resetRequest (s : State) (v w : Bool) : (s.setIffs v w).resetRequest = s.resetRequest := rfl
@[simp] theorem setIffs_q (s : State) (v w : Bool) : (s.setIffs v w).q = s.q := rfl
@[simp] theorem setIffs_lastQ (s : State) (v w : Bool) : (s.setIffs v w).lastQ = s.lastQ := rfl
@[simp] theorem setIffs_pfx (s : State) (v w : Bool) : (s.setIffs v w).pfx = s.pfx := rfl
@[simp] theorem setIffs_breakpoints (s : State) (v w : Bool) : (s.setIffs v w).breakpoints = s.breakpoints := rfl
@[simp] theorem setIffs_mem (s : State) (v w : Bool) : (s.setIffs v w).mem = s.mem := rfl
@[simp] theorem setIffs_bus (s : State) (v w : Bool) : (s.setIffs v w).bus = s.bus := rfl
@[simp] theorem setIffs_portAnswers (s : State) (v w : Bool) : (s.setIffs v w).portAnswers = s.portAnswers := rfl
@[simp] theorem setIffs_ackAnswers (s : State) (v w : Bool) : (s.setIffs v w).ackAnswers = s.ackAnswers := rfl
@[simp] theorem setIffs_hookAnswers (s : State) (v w : Bool) : (s.setIffs v w).hookAnswers = s.hookAnswers := rfl
@[simp] theorem setIffs_draws (s : State) (v w : Bool) : (s.setIffs v w).draws = s.draws := rfl
@[simp] theorem setIffs_params (s : State) (v w : Bool) : (s.setIffs v w).params = s.params := rfl
@[simp] theorem setIffs_lastLdAIR (s : State) (v w : Bool) : (s.setIffs v w).lastLdAIR = s.lastLdAIR := rfl
@[simp] theorem setIffs_kind (s : State) (v w : Bool) : (s.setIffs v w).kind = s.kind := rfl

/-! `setIm` -/
@[simp] theorem setIm_a (s : State) (v : IntMode) : (s.setIm v).a = s.a := rfl
@[simp] theorem setIm_f (s : State) (v : IntMode) : (s.setIm v).f = s.f := rfl
@[simp] theorem setIm_b (s : State) (v : IntMode) : (s.setIm v).b = s.b := rfl
@[simp] theorem setIm_c (s : State) (v : IntMode) : (s.setIm v).c = s.c := rfl
@[simp] theorem setIm_d (s : State) (v : IntMode) : (s.setIm v).d = s.d := rfl
@[simp] theorem setIm_e (s : State) (v : IntMode) : (s.setIm v).e = s.e := rfl
@[simp] theorem setIm_h (s : State) (v : IntMode) : (s.setIm v).h = s.h := rfl
@[simp] theorem setIm_l (s : State) (v : IntMode) : (s.setIm v).l = s.l := rfl
@[simp] theorem setIm_aAlt (s : State) (v : IntMode) : (s.setIm v).aAlt = s.aAlt := rfl
@[simp] theorem setIm_fAlt (s : State) (v : IntMode) : (s.setIm v).fAlt = s.fAlt := rfl
@[simp] theorem setIm_bAlt (s : State) (v : IntMode) : (s.setIm v).bAlt = s.bAlt := rfl
@[simp] theorem setIm_cAlt (s : State) (v : IntMode) : (s.setIm v).cAlt = s.cAlt := rfl
@[simp] theorem setIm_dAlt (s : State) (v : IntMode) : (s.setIm v).dAlt = s.dAlt := rfl
@[simp] theorem setIm_eAlt (s : State) (v : IntMode) : (s.setIm v).eAlt = s.eAlt := rfl
@[simp] theorem setIm_hAlt (s : State) (v : IntMode) : (s.setIm v).hAlt = s.hAlt := rfl
@[simp] theorem setIm_lAlt (s : State) (v : IntMode) : (s.setIm v).lAlt = s.lAlt := rfl
@[simp] theorem setIm_ix (s : State) (v : IntMode) : (s.setIm v).ix = s.ix := rfl
@[simp] theorem setIm_iy (s : State) (v : IntMode) : (s.setIm v).iy = s.iy := rfl
@[simp] theorem setIm_sp (s : State) (v : IntMode) : (s.setIm v).sp = s.sp := rfl
@[simp] theorem setIm_pc (s : State) (v : IntMode) : (s.setIm v).pc = s.pc := rfl
@[simp] theorem setIm_i (s : State) (v : IntMode) : (s.setIm v).i = s.i := rfl
@[simp] theorem setIm_r (s : State) (v : IntMode) : (s.setIm v).r = s.r := rfl
@[simp] theorem setIm_memptr (s : State) (v : IntMode) : (s.setIm v).memptr = s.memptr := rfl
@[simp] theorem setIm_iff1 (s : State) (v : IntMode) : (s.setIm v).iff1 = s.iff1 := rfl
@[simp] theorem setIm_iff2 (s : State) (v : IntMode) : (s.setIm v).iff2 = s.iff2 := rfl
@[simp] theorem setIm_im (s : State) (v : IntMode) : (s.setIm v).im = v := rfl
@[simp] theorem setIm_pendingEI (s : State) (v : IntMode) : (s.setIm v).pendingEI = s.pendingEI := rfl
@[simp] theorem setIm_halted (s : State) (v : IntMode) : (s.setIm v).halted = s.halted := rfl
@[simp] theorem setIm_nmiPending (s : State) (v : IntMode) : (s.setIm v).nmiPending = s.nmiPending := rfl
@[simp] theorem setIm_intLine (s : State) (v : IntMode) : (s.setIm v).intLine = s.intLine := rfl
@[simp] theorem setIm_resetRequest (s : State) (v : IntMode) : (s.setIm v).resetRequest = s.resetRequest := rfl
@[simp] theorem setIm_q (s : State) (v : IntMode) : (s.setIm v).q = s.q := rfl
@[simp] theorem setIm_lastQ (s : State) (v : IntMode) : (s.setIm v).lastQ = s.lastQ := rfl
@[simp] theorem setIm_pfx (s : State) (v : IntMode) : (s.setIm v).pfx = s.pfx := rfl
@[simp] theorem setIm_breakpoints (s : State) (v : IntMode) : (s.setIm v).breakpoints = s.breakpoints := rfl
@[simp] theorem setIm_mem (s : State) (v : IntMode) : (s.setIm v).mem = s.mem := rfl
@[simp] theorem setIm_bus (s : State) (v : IntMode) : (s.setIm v).bus = s.bus := rfl
@[simp] theorem setIm_portAnswers (s : State) (v : IntMode) : (s.setIm v).portAnswers = s.portAnswers := rfl
@[simp] theorem setIm_ackAnswers (s : State) (v : IntMode) : (s.setIm v).ackAnswers = s.ackAnswers := rfl
@[simp] theorem setIm_hookAnswers (s : State) (v : IntMode) : (s.setIm v).hookAnswers = s.hookAnswers := rfl
@[simp] theorem setIm_draws (s : State) (v : IntMode) : (s.setIm v).draws = s.draws := rfl
@[simp] theorem setIm_params (s : State) (v : IntMode) : (s.setIm v).params = s.params := rfl
@[simp] theorem setIm_lastLdAIR (s : State) (v : IntMode) : (s.setIm v).lastLdAIR = s.lastLdAIR := rfl
@[simp] theorem setIm_kind (s : State) (v : IntMode) : (s.setIm v).kind = s.kind := rfl

/-! `setPendingEI` -/
@[simp] theorem setPendingEI_a (s : State) (v : Bool) : (s.setPendingEI v).a = s.a := rfl
@[simp] theorem setPendingEI_f (s : State) (v : Bool) : (s.setPendingEI v).f = s.f := rfl
@[simp] theorem setPendingEI_b (s : State) (v : Bool) : (s.setPendingEI v).b = s.b := rfl
@[simp] theorem setPendingEI_c (s : State) (v : Bool) : (s.setPendingEI v).c = s.c := rfl
@[simp] theorem setPendingEI_d (s : State) (v : Bool) : (s.setPendingEI v).d = s.d := rfl
@[simp] theorem setPendingEI_e (s : State) (v : Bool) : (s.setPendingEI v).e = s.e := rfl
@[simp] theorem setPendingEI_h (s : State) (v : Bool) : (s.setPendingEI v).h = s.h := rfl
@[simp] theorem setPendingEI_l (s : State) (v : Bool) : (s.setPendingEI v).l = s.l := rfl
@[simp] theorem setPendingEI_aAlt (s : State) (v : Bool) : (s.setPendingEI v).aAlt = s.aAlt := rfl
@[simp] theorem setPendingEI_fAlt (s : State) (v : Bool) : (s.setPendingEI v).fAlt = s.fAlt := rfl
@[simp] theorem setPendingEI_bAlt (s : State) (v : Bool) : (s.setPendingEI v).bAlt = s.bAlt := rfl
@[simp] theorem setPendingEI_cAlt (s : State) (v : Bool) : (s.setPendingEI v).cAlt = s.cAlt := rfl
@[simp] theorem setPendingEI_dAlt (s : State) (v : Bool) : (s.setPendingEI v).dAlt = s.dAlt := rfl
@[simp] theorem setPendingEI_eAlt (s : State) (v : Bool) : (s.setPendingEI v).eAlt = s.eAlt := rfl
@[simp] theorem setPendingEI_hAlt (s : State) (v : Bool) : (s.setPendingEI v).hAlt = s.hAlt := rfl
@[simp] theorem setPendingEI_lAlt (s : State) (v : Bool) : (s.setPendingEI v).lAlt = s.lAlt := rfl
@[simp] theorem setPendingEI_ix (s : State) (v : Bool) : (s.setPendingEI v).ix = s.ix := rfl
@[simp] theorem setPendingEI_iy (s : State) (v : Bool) : (s.setPendingEI v).iy = s.iy := rfl
@[simp] theorem setPendingEI_sp (s : State) (v : Bool) : (s.setPendingEI v).sp = s.sp := rfl
@[simp] theorem setPendingEI_pc (s : State) (v : Bool) : (s.setPendingEI v).pc = s.pc := rfl
@[simp] theorem setPendingEI_i (s : State) (v : Bool) : (s.setPendingEI v).i = s.i := rfl
@[simp] theorem setPendingEI_r (s : State) (v : Bool) : (s.setPendingEI v).r = s.r := rfl
@[simp] theorem setPendingEI_memptr (s : State) (v : Bool) : (s.setPendingEI v).memptr = s.memptr := rfl
@[simp] theorem setPendingEI_iff1 (s : State) (v : Bool) : (s.setPendingEI v).iff1 = s.iff1 := rfl
@[simp] theorem setPendingEI_iff2 (s : State) (v : Bool) : (s.setPendingEI v).iff2 = s.iff2 := rfl
@[simp] theorem setPendingEI_im (s : State) (v : Bool) : (s.setPendingEI v).im = s.im := rfl
@[simp] theorem setPendingEI_pendingEI (s : State) (v : Bool) : (s.setPendingEI v).pendingEI = v := rfl
@[simp] theorem setPendingEI_halted (s : State) (v : Bool) : (s.setPendingEI v).halted = s.halted := rfl
@[simp] theorem setPendingEI_nmiPending (s : State) (v : Bool) : (s.setPendingEI v).nmiPending = s.nmiPending := rfl
@[simp] theorem setPendingEI_intLine (s : State) (v : Bool) : (s.setPendingEI v).intLine = s.intLine := rfl
@[simp] theorem setPendingEI_resetRequest (s : State) (v : Bool) : (s.setPendingEI v).resetRequest = s.resetRequest := rfl
@[simp] theorem setPendingEI_q (s : State) (v : Bool) : (s.setPendingEI v).q = s.q := rfl
@[simp] theorem setPendingEI_lastQ (s : State) (v : Bool) : (s.setPendingEI v).lastQ = s.lastQ := rfl
@[simp] theorem setPendingEI_pfx (s : State) (v : Bool) : (s.setPendingEI v).pfx = s.pfx := rfl
@[simp] theorem setPendingEI_breakpoints (s : State) (v : Bool) : (s.setPendingEI v).breakpoints = s.breakpoints := rfl
@[simp] theorem setPendingEI_mem (s : State) (v : Bool) : (s.setPendingEI v).mem = s.mem := rfl
@[simp] theorem setPendingEI_bus (s : State) (v : Bool) : (s.setPendingEI v).bus = s.bus := rfl
@[simp] theorem setPendingEI_portAnswers (s : State) (v : Bool) : (s.setPendingEI v).portAnswers = s.portAnswers := rfl
@[simp] theorem setPendingEI_ackAnswers (s : State) (v : Bool) : (s.setPendingEI v).ackAnswers = s.ackAnswers := rfl
@[simp] theorem setPendingEI_hookAnswers (s : State) (v : Bool) : (s.setPendingEI v).hookAnswers = s.hookAnswers := rfl
@[simp] theorem setPendingEI_draws (s : State) (v : Bool) : (s.setPendingEI v).draws = s.draws := rfl
@[simp] theorem setPendingEI_params (s : State) (v : Bool) : (s.setPendingEI v).params = s.params := rfl
@[simp] theorem setPendingEI_lastLdAIR (s : State) (v : Bool) : (s.setPendingEI v).lastLdAIR = s.lastLdAIR := rfl
@[simp] theorem setPendingEI_kind (s : State) (v : Bool) : (s.setPendingEI v).kind = s.kind := rfl

/-! `setHalted` -/
@[simp] theorem setHalted_a (s : State) (v : Bool) : (s.setHalted v).a = s.a := rfl
@[simp] theorem setHalted_f (s : State) (v : Bool) : (s.setHalted v).f = s.f := rfl
@[simp] theorem setHalted_b (s : State) (v : Bool) : (s.setHalted v).b = s.b := rfl
@[simp] theorem setHalted_c (s : State) (v : Bool) : (s.setHalted v).c = s.c := rfl
@[simp] theorem setHalted_d (s : State) (v : Bool) : (s.setHalted v).d = s.d := rfl
@[simp] theorem setHalted_e (s : State) (v : Bool) : (s.setHalted v).e = s.e := rfl
@[simp] theorem setHalted_h (s : State) (v : Bool) : (s.setHalted v).h = s.h := rfl
@[simp] theorem setHalted_l (s : State) (v : Bool) : (s.setHalted v).l = s.l := rfl
@[simp] theorem setHalted_aAlt (s : State) (v : Bool) : (s.setHalted v).aAlt = s.aAlt := rfl
@[simp] theorem setHalted_fAlt (s : State) (v : Bool) : (s.setHalted v).fAlt = s.fAlt := rfl
@[simp] theorem setHalted_bAlt (s : State) (v : Bool) : (s.setHalted v).bAlt = s.bAlt := rfl
@[simp] theorem setHalted_cAlt (s : State) (v : Bool) : (s.setHalted v).cAlt = s.cAlt := rfl
@[simp] theorem setHalted_dAlt (s : State) (v : Bool) : (s.setHalted v).dAlt = s.dAlt := rfl
@[simp] theorem setHalted_eAlt (s : State) (v : Bool) : (s.setHalted v).eAlt = s.eAlt := rfl
@[simp] theorem setHalted_hAlt (s : State) (v : Bool) : (s.setHalted v).hAlt = s.hAlt := rfl
@[simp] theorem setHalted_lAlt (s : State) (v : Bool) : (s.setHalted v).lAlt = s.lAlt := rfl
@[simp] theorem setHalted_ix (s : State) (v : Bool) : (s.setHalted v).ix = s.ix := rfl
@[simp] theorem setHalted_iy (s : State) (v : Bool) : (s.setHalted v).iy = s.iy := rfl
@[simp] theorem setHalted_sp (s : State) (v : Bool) : (s.setHalted v).sp = s.sp := rfl
@[simp] theorem setHalted_pc (s : State) (v : Bool) : (s.setHalted v).pc = s.pc := rfl
@[simp] theorem setHalted_i (s : State) (v : Bool) : (s.setHalted v).i = s.i := rfl
@[simp] theorem setHalted_r (s : State) (v : Bool) : (s.setHalted v).r = s.r := rfl
@[simp] theorem setHalted_memptr (s : State) (v : Bool) : (s.setHalted v).memptr = s.memptr := rfl
@[simp] theorem setHalted_iff1 (s : State) (v : Bool) : (s.setHalted v).iff1 = s.iff1 := rfl
@[simp] theorem setHalted_iff2 (s : State) (v : Bool) : (s.setHalted v).iff2 = s.iff2 := rfl
@[simp] theorem setHalted_im (s : State) (v : Bool) : (s.setHalted v).im = s.im := rfl
@[simp] theorem setHalted_pendingEI (s : State) (v : Bool) : (s.setHalted v).pendingEI = s.pendingEI := rfl
@[simp] theorem setHalted_halted (s : State) (v : Bool) : (s.setHalted v).halted = v := rfl
@[simp] theorem setHalted_nmiPending (s : State) (v : Bool) : (s.setHalted v).nmiPending = s.nmiPending := rfl
@[simp] theorem setHalted_intLine (s : State) (v : Bool) : (s.setHalted v).intLine = s.intLine := rfl
@[simp] theorem setHalted_resetRequest (s : State) (v : Bool) : (s.setHalted v).resetRequest = s.resetRequest := rfl
@[simp] theorem setHalted_q (s : State) (v : Bool) : (s.setHalted v).q = s.q := rfl
@[simp] theorem setHalted_lastQ (s : State) (v : Bool) : (s.setHalted v).lastQ = s.lastQ := rfl
@[simp] theorem setHalted_pfx (s : State) (v : Bool) : (s.setHalted v).pfx = s.pfx := rfl
@[simp] theorem setHalted_breakpoints (s : State) (v : Bool) : (s.setHalted v).breakpoints = s.breakpoints := rfl
@[simp] theorem setHalted_mem (s : State) (v : Bool) : (s.setHalted v).mem = s.mem := rfl
@[simp] theorem setHalted_bus (s : State) (v : Bool) : (s.setHalted v).bus = s.bus := rfl
@[simp] theorem setHalted_portAnswers (s : State) (v : Bool) : (s.setHalted v).portAnswers = s.portAnswers := rfl
@[simp] theorem setHalted_ackAnswers (s : State) (v : Bool) : (s.setHalted v).ackAnswers = s.ackAnswers := rfl
@[simp] theorem setHalted_hookAnswers (s : State) (v : Bool) : (s.setHalted v).hookAnswers = s.hookAnswers := rfl
@[simp] theorem setHalted_draws (s : State) (v : Bool) : (s.setHalted v).draws = s.draws := rfl
@[simp] theorem setHalted_params (s : State) (v : Bool) : (s.setHalted v).params = s.params := rfl
@[simp] theorem setHalted_lastLdAIR (s : State) (v : Bool) : (s.setHalted v).lastLdAIR = s.lastLdAIR := rfl
@[simp] theorem setHalted_kind (s : State) (v : Bool) : (s.setHalted v).kind = s.kind := rfl

/-! `setNmiPending` -/
@[simp] theorem setNmiPending_a (s : State) (v : Bool) : (s.setNmiPending v).a = s.a := rfl
@[simp] theorem setNmiPending_f (s : State) (v : Bool) : (s.setNmiPending v).f = s.f := rfl
@[simp] theorem setNmiPending_b (s : State) (v : Bool) : (s.setNmiPending v).b = s.b := rfl
@[simp] theorem setNmiPending_c (s : State) (v : Bool) : (s.setNmiPending v).c = s.c := rfl
@[simp] theorem setNmiPending_d (s : State) (v : Bool) : (s.setNmiPending v).d = s.d := rfl
@[simp] theorem setNmiPending_e (s : State) (v : Bool) : (s.setNmiPending v).e = s.e := rfl
@[simp] theorem setNmiPending_h (s : State) (v : Bool) : (s.setNmiPending v).h = s.h := rfl
@[simp] theorem setNmiPending_l (s : State) (v : Bool) : (s.setNmiPending v).l = s.l := rfl
@[simp] theorem setNmiPending_aAlt (s : State) (v : Bool) : (s.setNmiPending v).aAlt = s.aAlt := rfl
@[simp] theorem setNmiPending_fAlt (s : State) (v : Bool) : (s.setNmiPending v).fAlt = s.fAlt := rfl
@[simp] theorem setNmiPending_bAlt (s : State) (v : Bool) : (s.setNmiPending v).bAlt = s.bAlt := rfl
@[simp] theorem setNmiPending_cAlt (s : State) (v : Bool) : (s.setNmiPending v).cAlt = s.cAlt := rfl
@[simp] theorem setNmiPending_dAlt (s : State) (v : Bool) : (s.setNmiPending v).dAlt = s.dAlt := rfl
@[simp] theorem setNmiPending_eAlt (s : State) (v : Bool) : (s.setNmiPending v).eAlt = s.eAlt := rfl
@[simp] theorem setNmiPending_hAlt (s : State) (v : Bool) : (s.setNmiPending v).hAlt = s.hAlt := rfl
@[simp] theorem setNmiPending_lAlt (s : State) (v : Bool) : (s.setNmiPending v).lAlt = s.lAlt := rfl
@[simp] theorem setNmiPending_ix (s : State) (v : Bool) : (s.setNmiPending v).ix = s.ix := rfl
@[simp] theorem setNmiPending_iy (s : State) (v : Bool) : (s.setNmiPending v).iy = s.iy := rfl
@[simp] theorem setNmiPending_sp (s : State) (v : Bool) : (s.setNmiPending v).sp = s.sp := rfl
@[simp] theorem setNmiPending_pc (s : State) (v : Bool) : (s.setNmiPending v).pc = s.pc := rfl
@[simp] theorem setNmiPending_i (s : State) (v : Bool) : (s.setNmiPending v).i = s.i := rfl
@[simp] theorem setNmiPending_r (s : State) (v : Bool) : (s.setNmiPending v).r = s.r := rfl
@[simp] theorem setNmiPending_memptr (s : State) (v : Bool) : (s.setNmiPending v).memptr = s.memptr := rfl
@[simp] theorem setNmiPending_iff1 (s : State) (v : Bool) : (s.setNmiPending v).iff1 = s.iff1 := rfl
@[simp] theorem setNmiPending_iff2 (s : State) (v : Bool) : (s.setNmiPending v).iff2 = s.iff2 := rfl
@[simp] theorem setNmiPending_im (s : State) (v : Bool) : (s.setNmiPending v).im = s.im := rfl
@[simp] theorem setNmiPending_pendingEI (s : State) (v : Bool) : (s.setNmiPending v).pendingEI = s.pendingEI := rfl
@[simp] theorem setNmiPending_halted (s : State) (v : Bool) : (s.setNmiPending v).halted = s.halted := rfl
@[simp] theorem setNmiPending_nmiPending (s : State) (v : Bool) : (s.setNmiPending v).nmiPending = v := rfl
@[simp] theorem setNmiPending_intLine (s : State) (v : Bool) : (s.setNmiPending v).intLine = s.intLine := rfl
@[simp] theorem setNmiPending_resetRequest (s : State) (v : Bool) : (s.setNmiPending v).resetRequest = s.resetRequest := rfl
@[simp] theorem setNmiPending_q (s : State) (v : Bool) : (s.setNmiPending v).q = s.q := rfl
@[simp] theorem setNmiPending_lastQ (s : State) (v : Bool) : (s.setNmiPending v).lastQ = s.lastQ := rfl
@[simp] theorem setNmiPending_pfx (s : State) (v : Bool) : (s.setNmiPending v).pfx = s.pfx := rfl
@[simp] theorem setNmiPending_breakpoints (s : State) (v : Bool) : (s.setNmiPending v).breakpoints = s.breakpoints := rfl
@[simp] theorem setNmiPending_mem (s : State) (v : Bool) : (s.setNmiPending v).mem = s.mem := rfl
@[simp] theorem setNmiPending_bus (s : State) (v : Bool) : (s.setNmiPending v).bus = s.bus := rfl
@[simp] theorem setNmiPending_portAnswers (s : State) (v : Bool) : (s.setNmiPending v).portAnswers = s.portAnswers := rfl
@[simp] theorem setNmiPending_ackAnswers (s : State) (v : Bool) : (s.setNmiPending v).ackAnswers = s.ackAnswers := rfl
@[simp] theorem setNmiPending_hookAnswers (s : State) (v : Bool) : (s.setNmiPending v).hookAnswers = s.hookAnswers := rfl
@[simp] theorem setNmiPending_draws (s : State) (v : Bool) : (s.setNmiPending v).draws = s.draws := rfl
@[simp] theorem setNmiPending_params (s : State) (v : Bool) : (s.setNmiPending v).params = s.params := rfl
@[simp] theorem setNmiPending_lastLdAIR (s : State) (v : Bool) : (s.setNmiPending v).lastLdAIR = s.lastLdAIR := rfl
@[simp] theorem setNmiPending_kind (s : State) (v : Bool) : (s.setNmiPending v).kind = s.kind := rfl

/-! `setLastQ` -/
@[simp] theorem setLastQ_a (s : State) (v : Bool) : (s.setLastQ v).a = s.a := rfl
@[simp] theorem setLastQ_f (s : State) (v : Bool) : (s.setLastQ v).f = s.f := rfl
@[simp] theorem setLastQ_b (s : State) (v : Bool) : (s.setLastQ v).b = s.b := rfl
@[simp] theorem setLastQ_c (s : State) (v : Bool) : (s.setLastQ v).c = s.c := rfl
@[simp] theorem setLastQ_d (s : State) (v : Bool) : (s.setLastQ v).d = s.d := rfl
@[simp] theorem setLastQ_e (s : State) (v : Bool) : (s.setLastQ v).e = s.e := rfl
@[simp] theorem setLastQ_h (s : State) (v : Bool) : (s.setLastQ v).h = s.h := rfl
@[simp] theorem setLastQ_l (s : State) (v : Bool) : (s.setLastQ v).l = s.l := rfl
@[simp] theorem setLastQ_aAlt (s : State) (v : Bool) : (s.setLastQ v).aAlt = s.aAlt := rfl
@[simp] theorem setLastQ_fAlt (s : State) (v : Bool) : (s.setLastQ v).fAlt = s.fAlt := rfl
@[simp] theorem setLastQ_bAlt (s : State) (v : Bool) : (s.setLastQ v).bAlt = s.bAlt := rfl
@[simp] theorem setLastQ_cAlt (s : State) (v : Bool) : (s.setLastQ v).cAlt = s.cAlt := rfl
@[simp] theorem setLastQ_dAlt (s : State) (v : Bool) : (s.setLastQ v).dAlt = s.dAlt := rfl
@[simp] theorem setLastQ_eAlt (s : State) (v : Bool) : (s.setLastQ v).eAlt = s.eAlt := rfl
@[simp] theorem setLastQ_hAlt (s : State) (v : Bool) : (s.setLastQ v).hAlt = s.hAlt := rfl
@[simp] theorem setLastQ_lAlt (s : State) (v : Bool) : (s.setLastQ v).lAlt = s.lAlt := rfl
@[simp] theorem setLastQ_ix (s : State) (v : Bool) : (s.setLastQ v).ix = s.ix := rfl
@[simp] theorem setLastQ_iy (s : State) (v : Bool) : (s.setLastQ v).iy = s.iy := rfl
@[simp] theorem setLastQ_sp (s : State) (v : Bool) : (s.setLastQ v).sp = s.sp := rfl
@[simp] theorem setLastQ_pc (s : State) (v : Bool) : (s.setLastQ v).pc = s.pc := rfl
@[simp] theorem setLastQ_i (s : State) (v : Bool) : (s.setLastQ v).i = s.i := rfl
@[simp] theorem setLastQ_r (s : State) (v : Bool) : (s.setLastQ v).r = s.r := rfl
@[simp] theorem setLastQ_memptr (s : State) (v : Bool) : (s.setLastQ v).memptr = s.memptr := rfl
@[simp] theorem setLastQ_iff1 (s : State) (v : Bool) : (s.setLastQ v).iff1 = s.iff1 := rfl
@[simp] theorem setLastQ_iff2 (s : State) (v : Bool) : (s.setLastQ v).iff2 = s.iff2 := rfl
@[simp] theorem setLastQ_im (s : State) (v : Bool) : (s.setLastQ v).im = s.im := rfl
@[simp] theorem setLastQ_pendingEI (s : State) (v : Bool) : (s.setLastQ v).pendingEI = s.pendingEI := rfl
@[simp] theorem setLastQ_halted (s : State) (v : Bool) : (s.setLastQ v).halted = s.halted := rfl
@[simp] theorem setLastQ_nmiPending (s : State) (v : Bool) : (s.setLastQ v).nmiPending = s.nmiPending := rfl
@[simp] theorem setLastQ_intLine (s : State) (v : Bool) : (s.setLastQ v).intLine = s.intLine := rfl
@[simp] theorem setLastQ_resetRequest (s : State) (v : Bool) : (s.setLastQ v).resetRequest = s.resetRequest := rfl
@[simp] theorem setLastQ_q (s : State) (v : Bool) : (s.setLastQ v).q = s.q := rfl
@[simp] theorem setLastQ_lastQ (s : State) (v : Bool) : (s.setLastQ v).lastQ = v := rfl
@[simp] theorem setLastQ_pfx (s : State) (v : Bool) : (s.setLastQ v).pfx = s.pfx := rfl
@[simp] theorem setLastQ_breakpoints (s : State) (v : Bool) : (s.setLastQ v).breakpoints = s.breakpoints := rfl
@[simp] theorem setLastQ_mem (s : State) (v : Bool) : (s.setLastQ v).mem = s.mem := rfl
@[simp] theorem setLastQ_bus (s : State) (v : Bool) : (s.setLastQ v).bus = s.bus := rfl
@[simp] theorem setLastQ_portAnswers (s : State) (v : Bool) : (s.setLastQ v).portAnswers = s.portAnswers := rfl
@[simp] theorem setLastQ_ackAnswers (s : State) (v : Bool) : (s.setLastQ v).ackAnswers = s.ackAnswers := rfl
@[simp] theorem setLastQ_hookAnswers (s : State) (v : Bool) : (s.setLastQ v).hookAnswers = s.hookAnswers := rfl
@[simp] theorem setLastQ_draws (s : State) (v : Bool) : (s.setLastQ v).draws = s.draws := rfl
@[simp] theorem setLastQ_params (s : State) (v : Bool) : (s.setLastQ v).params = s.params := rfl
@[simp] theorem setLastQ_lastLdAIR (s : State) (v : Bool) : (s.setLastQ v).lastLdAIR = s.lastLdAIR := rfl
@[simp] theorem setLastQ_kind (s : State) (v : Bool) : (s.setLastQ v).kind = s.kind := rfl

/-! `setLastLdAIR` -/
@[simp] theorem setLastLdAIR_a (s : State) (v : Bool) : (s.setLastLdAIR v).a = s.a := rfl
@[simp] theorem setLastLdAIR_f (s : State) (v : Bool) : (s.setLastLdAIR v).f = s.f := rfl
@[simp] theorem setLastLdAIR_b (s : State) (v : Bool) : (s.setLastLdAIR v).b = s.b := rfl
@[simp] theorem setLastLdAIR_c (s : State) (v : Bool) : (s.setLastLdAIR v).c = s.c := rfl
@[simp] theorem setLastLdAIR_d (s : State) (v : Bool) : (s.setLastLdAIR v).d = s.d := rfl
@[simp] theorem setLastLdAIR_e (s : State) (v : Bool) : (s.setLastLdAIR v).e = s.e := rfl
@[simp] theorem setLastLdAIR_h (s : State) (v : Bool) : (s.setLastLdAIR v).h = s.h := rfl
@[simp] theorem setLastLdAIR_l (s : State) (v : Bool) : (s.setLastLdAIR v).l = s.l := rfl
@[simp] theorem setLastLdAIR_aAlt (s : State) (v : Bool) : (s.setLastLdAIR v).aAlt = s.aAlt := rfl
@[simp] theorem setLastLdAIR_fAlt (s : State) (v : Bool) : (s.setLastLdAIR v).fAlt = s.fAlt := rfl
@[simp] theorem setLastLdAIR_bAlt (s : State) (v : Bool) : (s.setLastLdAIR v).bAlt = s.bAlt := rfl
@[simp] theorem setLastLdAIR_cAlt (s : State) (v : Bool) : (s.setLastLdAIR v).cAlt = s.cAlt := rfl
@[simp] theorem setLastLdAIR_dAlt (s : State) (v : Bool) : (s.setLastLdAIR v).dAlt = s.dAlt := rfl
@[simp] theorem setLastLdAIR_eAlt (s : State) (v : Bool) : (s.setLastLdAIR v).eAlt = s.eAlt := rfl
@[simp] theorem setLastLdAIR_hAlt (s : State) (v : Bool) : (s.setLastLdAIR v).hAlt = s.hAlt := rfl
@[simp] theorem setLastLdAIR_lAlt (s : State) (v : Bool) : (s.setLastLdAIR v).lAlt = s.lAlt := rfl
@[simp] theorem setLastLdAIR_ix (s : State) (v : Bool) : (s.setLastLdAIR v).ix = s.ix := rfl
@[simp] theorem setLastLdAIR_iy (s : State) (v : Bool) : (s.setLastLdAIR v).iy = s.iy := rfl
@[simp] theorem setLastLdAIR_sp (s : State) (v : Bool) : (s.setLastLdAIR v).sp = s.sp := rfl
@[simp] theorem setLastLdAIR_pc (s : State) (v : Bool) : (s.setLastLdAIR v).pc = s.pc := rfl
@[simp] theorem setLastLdAIR_i (s : State) (v : Bool) : (s.setLastLdAIR v).i = s.i := rfl
@[simp] theorem setLastLdAIR_r (s : State) (v : Bool) : (s.setLastLdAIR v).r = s.r := rfl
@[simp] theorem setLastLdAIR_memptr (s : State) (v : Bool) : (s.setLastLdAIR v).memptr = s.memptr := rfl
@[simp] theorem setLastLdAIR_iff1 (s : State) (v : Bool) : (s.setLastLdAIR v).iff1 = s.iff1 := rfl
@[simp] theorem setLastLdAIR_iff2 (s : State) (v : Bool) : (s.setLastLdAIR v).iff2 = s.iff2 := rfl
@[simp] theorem setLastLdAIR_im (s : State) (v : Bool) : (s.setLastLdAIR v).im = s.im := rfl
@[simp] theorem setLastLdAIR_pendingEI (s : State) (v : Bool) : (s.setLastLdAIR v).pendingEI = s.pendingEI := rfl
@[simp] theorem setLastLdAIR_halted (s : State) (v : Bool) : (s.setLastLdAIR v).halted = s.halted := rfl
@[simp] theorem setLastLdAIR_nmiPending (s : State) (v : Bool) : (s.setLastLdAIR v).nmiPending = s.nmiPending := rfl
@[simp] theorem setLastLdAIR_intLine (s : State) (v : Bool) : (s.setLastLdAIR v).intLine = s.intLine := rfl
@[simp] theorem setLastLdAIR_resetRequest (s : State) (v : Bool) : (s.setLastLdAIR v).resetRequest = s.resetRequest := rfl
@[simp] theorem setLastLdAIR_q (s : State) (v : Bool) : (s.setLastLdAIR v).q = s.q := rfl
@[simp] theorem setLastLdAIR_lastQ (s : State) (v : Bool) : (s.setLastLdAIR v).lastQ = s.lastQ := rfl
@[simp] theorem setLastLdAIR_pfx (s : State) (v : Bool) : (s.setLastLdAIR v).pfx = s.pfx := rfl
@[simp] theorem setLastLdAIR_breakpoints (s : State) (v : Bool) : (s.setLastLdAIR v).breakpoints = s.breakpoints := rfl
@[simp] theorem setLastLdAIR_mem (s : State) (v : Bool) : (s.setLastLdAIR v).mem = s.mem := rfl
@[simp] theorem setLastLdAIR_bus (s : State) (v : Bool) : (s.setLastLdAIR v).bus = s.bus := rfl
@[simp] theorem setLastLdAIR_portAnswers (s : State) (v : Bool) : (s.setLastLdAIR v).portAnswers = s.portAnswers := rfl
@[simp] theorem setLastLdAIR_ackAnswers (s : State) (v : Bool) : (s.setLastLdAIR v).ackAnswers = s.ackAnswers := rfl
@[simp] theorem setLastLdAIR_hookAnswers (s : State) (v : Bool) : (s.setLastLdAIR v).hookAnswers = s.hookAnswers := rfl
@[simp] theorem setLastLdAIR_draws (s : State) (v : Bool) : (s.setLastLdAIR v).draws = s.draws := rfl
@[simp] theorem setLastLdAIR_params (s : State) (v : Bool) : (s.setLastLdAIR v).params = s.params := rfl
@[simp] theorem setLastLdAIR_lastLdAIR (s : State) (v : Bool) : (s.setLastLdAIR v).lastLdAIR = v := rfl
@[simp] theorem setLastLdAIR_kind (s : State) (v : Bool) : (s.setLastLdAIR v).kind = s.kind := rfl

/-! `setPfx` -/
@[simp] theorem setPfx_a (s : State) (v : Option Idx) : (s.setPfx v).a = s.a := rfl
@[simp] theorem setPfx_f (s : State) (v : Option Idx) : (s.setPfx v).f = s.f := rfl
@[simp] theorem setPfx_b (s : State) (v : Option Idx) : (s.setPfx v).b = s.b := rfl
@[simp] theorem setPfx_c (s : State) (v : Option Idx) : (s.setPfx v).c = s.c := rfl
@[simp] theorem setPfx_d (s : State) (v : Option Idx) : (s.setPfx v).d = s.d := rfl
@[simp] theorem setPfx_e (s : State) (v : Option Idx) : (s.setPfx v).e = s.e := rfl
@[simp] theorem setPfx_h (s : State) (v : Option Idx) : (s.setPfx v).h = s.h := rfl
@[simp] theorem setPfx_l (s : State) (v : Option Idx) : (s.setPfx v).l = s.l := rfl
@[simp] theorem setPfx_aAlt (s : State) (v : Option Idx) : (s.setPfx v).aAlt = s.aAlt := rfl
@[simp] theorem setPfx_fAlt (s : State) (v : Option Idx) : (s.setPfx v).fAlt = s.fAlt := rfl
@[simp] theorem setPfx_bAlt (s : State) (v : Option Idx) : (s.setPfx v).bAlt = s.bAlt := rfl
@[simp] theorem setPfx_cAlt (s : State) (v : Option Idx) : (s.setPfx v).cAlt = s.cAlt := rfl
@[simp] theorem setPfx_dAlt (s : State) (v : Option Idx) : (s.setPfx v).dAlt = s.dAlt := rfl
@[simp] theorem setPfx_eAlt (s : State) (v : Option Idx) : (s.setPfx v).eAlt = s.eAlt := rfl
@[simp] theorem setPfx_hAlt (s : State) (v : Option Idx) : (s.setPfx v).hAlt = s.hAlt := rfl
@[simp] theorem setPfx_lAlt (s : State) (v : Option Idx) : (s.setPfx v).lAlt = s.lAlt := rfl
@[simp] theorem setPfx_ix (s : State) (v : Option Idx) : (s.setPfx v).ix = s.ix := rfl
@[simp] theorem setPfx_iy (s : State) (v : Option Idx) : (s.setPfx v).iy = s.iy := rfl
@[simp] theorem setPfx_sp (s : State) (v : Option Idx) : (s.setPfx v).sp = s.sp := rfl
@[simp] theorem setPfx_pc (s : State) (v : Option Idx) : (s.setPfx v).pc = s.pc := rfl
@[simp] theorem setPfx_i (s : State) (v : Option Idx) : (s.setPfx v).i = s.i := rfl
@[simp] theorem setPfx_r (s : State) (v : Option Idx) : (s.setPfx v).r = s.r := rfl
@[simp] theorem setPfx_memptr (s : State) (v : Option Idx) : (s.setPfx v).memptr = s.memptr := rfl
@[simp] theorem setPfx_iff1 (s : State) (v : Option Idx) : (s.setPfx v).iff1 = s.iff1 := rfl
@[simp] theorem setPfx_iff2 (s : State) (v : Option Idx) : (s.setPfx v).iff2 = s.iff2 := rfl
@[simp] theorem setPfx_im (s : State) (v : Option Idx) : (s.setPfx v).im = s.im := rfl
@[simp] theorem setPfx_pendingEI (s : State) (v : Option Idx) : (s.setPfx v).pendingEI = s.pendingEI := rfl
@[simp] theorem setPfx_halted (s : State) (v : Option Idx) : (s.setPfx v).halted = s.halted := rfl
@[simp] theorem setPfx_nmiPending (s : State) (v : Option Idx) : (s.setPfx v).nmiPending = s.nmiPending := rfl
@[simp] theorem setPfx_intLine (s : State) (v : Option Idx) : (s.setPfx v).intLine = s.intLine := rfl
@[simp] theorem setPfx_resetRequest (s : State) (v : Option Idx) : (s.setPfx v).resetRequest = s.resetRequest := rfl
@[simp] theorem setPfx_q (s : State) (v : Option Idx) : (s.setPfx v).q = s.q := rfl
@[simp] theorem setPfx_lastQ (s : State) (v : Option Idx) : (s.setPfx v).lastQ = s.lastQ := rfl
@[simp] theorem setPfx_pfx (s : State) (v : Option Idx) : (s.setPfx v).pfx = v := rfl
@[simp] theorem setPfx_breakpoints (s : State) (v : Option Idx) : (s.setPfx v).breakpoints = s.breakpoints := rfl
@[simp] theorem setPfx_mem (s : State) (v : Option Idx) : (s.setPfx v).mem = s.mem := rfl
@[simp] theorem setPfx_bus (s : State) (v : Option Idx) : (s.setPfx v).bus = s.bus := rfl
@[simp] theorem setPfx_portAnswers (s : State) (v : Option Idx) : (s.setPfx v).portAnswers = s.portAnswers := rfl
@[simp] theorem setPfx_ackAnswers (s : State) (v : Option Idx) : (s.setPfx v).ackAnswers = s.ackAnswers := rfl
@[simp] theorem setPfx_hookAnswers (s : State) (v : Option Idx) : (s.setPfx v).hookAnswers = s.hookAnswers := rfl
@[simp] theorem setPfx_draws (s : State) (v : Option Idx) : (s.setPfx v).draws = s.draws := rfl
@[simp] theorem setPfx_params (s : State) (v : Option Idx) : (s.setPfx v).params = s.params := rfl
@[simp] theorem setPfx_lastLdAIR (s : State) (v : Option Idx) : (s.setPfx v).lastLdAIR = s.lastLdAIR := rfl
@[simp] theorem setPfx_kind (s : State) (v : Option Idx) : (s.setPfx v).kind = s.kind := rfl

/-! `setKind` -/
@[simp] theorem setKind_a (s : State) (v : StepKind) : (s.setKind v).a = s.a := rfl
@[simp] theorem setKind_f (s : State) (v : StepKind) : (s.setKind v).f = s.f := rfl
@[simp] theorem setKind_b (s : State) (v : StepKind) : (s.setKind v).b = s.b := rfl
@[simp] theorem setKind_c (s : State) (v : StepKind) : (s.setKind v).c = s.c := rfl
@[simp] theorem setKind_d (s : State) (v : StepKind) : (s.setKind v).d = s.d := rfl
@[simp] theorem setKind_e (s : State) (v : StepKind) : (s.setKind v).e = s.e := rfl
@[simp] theorem setKind_h (s : State) (v : StepKind) : (s.setKind v).h = s.h := rfl
@[simp] theorem setKind_l (s : State) (v : StepKind) : (s.setKind v).l = s.l := rfl
@[simp] theorem setKind_aAlt (s : State) (v : StepKind) : (s.setKind v).aAlt = s.aAlt := rfl
@[simp] theorem setKind_fAlt (s : State) (v : StepKind) : (s.setKind v).fAlt = s.fAlt := rfl
@[simp] theorem setKind_bAlt (s : State) (v : StepKind) : (s.setKind v).bAlt = s.bAlt := rfl
@[simp] theorem setKind_cAlt (s : State) (v : StepKind) : (s.setKind v).cAlt = s.cAlt := rfl
@[simp] theorem setKind_dAlt (s : State) (v : StepKind) : (s.setKind v).dAlt = s.dAlt := rfl
@[simp] theorem setKind_eAlt (s : State) (v : StepKind) : (s.setKind v).eAlt = s.eAlt := rfl
@[simp] theorem setKind_hAlt (s : State) (v : StepKind) : (s.setKind v).hAlt = s.hAlt := rfl
@[simp] theorem setKind_lAlt (s : State) (v : StepKind) : (s.setKind v).lAlt = s.lAlt := rfl
@[simp] theorem setKind_ix (s : State) (v : StepKind) : (s.setKind v).ix = s.ix := rfl
@[simp] theorem setKind_iy (s : State) (v : StepKind) : (s.setKind v).iy = s.iy := rfl
@[simp] theorem setKind_sp (s : State) (v : StepKind) : (s.setKind v).sp = s.sp := rfl
@[simp] theorem setKind_pc (s : State) (v : StepKind) : (s.setKind v).pc = s.pc := rfl
@[simp] theorem setKind_i (s : State) (v : StepKind) : (s.setKind v).i = s.i := rfl
@[simp] theorem setKind_r (s : State) (v : StepKind) : (s.setKind v).r = s.r := rfl
@[simp] theorem setKind_memptr (s : State) (v : StepKind) : (s.setKind v).memptr = s.memptr := rfl
@[simp] theorem setKind_iff1 (s : State) (v : StepKind) : (s.setKind v).iff1 = s.iff1 := rfl
@[simp] theorem setKind_iff2 (s : State) (v : StepKind) : (s.setKind v).iff2 = s.iff2 := rfl
@[simp] theorem setKind_im (s : State) (v : StepKind) : (s.setKind v).im = s.im := rfl
@[simp] theorem setKind_pendingEI (s : State) (v : StepKind) : (s.setKind v).pendingEI = s.pendingEI := rfl
@[simp] theorem setKind_halted (s : State) (v : StepKind) : (s.setKind v).halted = s.halted := rfl
@[simp] theorem setKind_nmiPending (s : State) (v : StepKind) : (s.setKind v).nmiPending = s.nmiPending := rfl
@[simp] theorem setKind_intLine (s : State) (v : StepKind) : (s.setKind v).intLine = s.intLine := rfl
@[simp] theorem setKind_resetRequest (s : State) (v : StepKind) : (s.setKind v).resetRequest = s.resetRequest := rfl
@[simp] theorem setKind_q (s : State) (v : StepKind) : (s.setKind v).q = s.q := rfl
@[simp] theorem setKind_lastQ (s : State) (v : StepKind) : (s.setKind v).lastQ = s.lastQ := rfl
@[simp] theorem setKind_pfx (s : State) (v : StepKind) : (s.setKind v).pfx = s.pfx := rfl
@[simp] theorem setKind_breakpoints (s : State) (v : StepKind) : (s.setKind v).breakpoints = s.breakpoints := rfl
@[simp] theorem setKind_mem (s : State) (v : StepKind) : (s.setKind v).mem = s.mem := rfl
@[simp] theorem setKind_bus (s : State) (v : StepKind) : (s.setKind v).bus = s.bus := rfl
@[simp] theorem setKind_portAnswers (s : State) (v : StepKind) : (s.setKind v).portAnswers = s.portAnswers := rfl
@[simp] theorem setKind_ackAnswers (s : State) (v : StepKind) : (s.setKind v).ackAnswers = s.ackAnswers := rfl
@[simp] theorem setKind_hookAnswers (s : State) (v : StepKind) : (s.setKind v).hookAnswers = s.hookAnswers := rfl
@[simp] theorem setKind_draws (s : State) (v : StepKind) : (s.setKind v).draws = s.draws := rfl
@[simp] theorem setKind_params (s : State) (v : StepKind) : (s.setKind v).params = s.params := rfl
@[simp] theorem setKind_lastLdAIR (s : State) (v : StepKind) : (s.setKind v).lastLdAIR = s.lastLdAIR := rfl
@[simp] theorem setKind_kind (s : State) (v : StepKind) : (s.setKind v).kind = v := rfl

/-! `emit` -/
@[simp] theorem emit_a (s : State) (v : BusEvent) : (s.emit v).a = s.a := rfl
@[simp] theorem emit_f (s : State) (v : BusEvent) : (s.emit v).f = s.f := rfl
@[simp] theorem emit_b (s : State) (v : BusEvent) : (s.emit v).b = s.b := rfl
@[simp] theorem emit_c (s : State) (v : BusEvent) : (s.emit v).c = s.c := rfl
@[simp] theorem emit_d (s : State) (v : BusEvent) : (s.emit v).d = s.d := rfl
@[simp] theorem emit_e (s : State) (v : BusEvent) : (s.emit v).e = s.e := rfl
@[simp] theorem emit_h (s : State) (v : BusEvent) : (s.emit v).h = s.h := rfl
@[simp] theorem emit_l (s : State) (v : BusEvent) : (s.emit v).l = s.l := rfl
@[simp] theorem emit_aAlt (s : State) (v : BusEvent) : (s.emit v).aAlt = s.aAlt := rfl
@[simp] theorem emit_fAlt (s : State) (v : BusEvent) : (s.emit v).fAlt = s.fAlt := rfl
@[simp] theorem emit_bAlt (s : State) (v : BusEvent) : (s.emit v).bAlt = s.bAlt := rfl
@[simp] theorem emit_cAlt (s : State) (v : BusEvent) : (s.emit v).cAlt = s.cAlt := rfl
@[simp] theorem emit_dAlt (s : State) (v : BusEvent) : (s.emit v).dAlt = s.dAlt := rfl
@[simp] theorem emit_eAlt (s : State) (v : BusEvent) : (s.emit v).eAlt = s.eAlt := rfl
@[simp] theorem emit_hAlt (s : State) (v : BusEvent) : (s.emit v).hAlt = s.hAlt := rfl
@[simp] theorem emit_lAlt (s : State) (v : BusEvent) : (s.emit v).lAlt = s.lAlt := rfl
@[simp] theorem emit_ix (s : State) (v : BusEvent) : (s.emit v).ix = s.ix := rfl
@[simp] theorem emit_iy (s : State) (v : BusEvent) : (s.emit v).iy = s.iy := rfl
@[simp] theorem emit_sp (s : State) (v : BusEvent) : (s.emit v).sp = s.sp := rfl
@[simp] theorem emit_pc (s : State) (v : BusEvent) : (s.emit v).pc = s.pc := rfl
@[simp] theorem emit_i (s : State) (v : BusEvent) : (s.emit v).i = s.i := rfl
@[simp] theorem emit_r (s : State) (v : BusEvent) : (s.emit v).r = s.r := rfl
@[simp] theorem emit_memptr (s : State) (v : BusEvent) : (s.emit v).memptr = s.memptr := rfl
@[simp] theorem emit_iff1 (s : State) (v : BusEvent) : (s.emit v).iff1 = s.iff1 := rfl
@[simp] theorem emit_iff2 (s : State) (v : BusEvent) : (s.emit v).iff2 = s.iff2 := rfl
@[simp] theorem emit_im (s : State) (v : BusEvent) : (s.emit v).im = s.im := rfl
@[simp] theorem emit_pendingEI (s : State) (v : BusEvent) : (s.emit v).pendingEI = s.pendingEI := rfl
@[simp] theorem emit_halted (s : State) (v : BusEvent) : (s.emit v).halted = s.halted := rfl
@[simp] theorem emit_nmiPending (s : State) (v : BusEvent) : (s.emit v).nmiPending = s.nmiPending := rfl
@[simp] theorem emit_intLine (s : State) (v : BusEvent) : (s.emit v).intLine = s.intLine := rfl
@[simp] theorem emit_resetRequest (s : State) (v : BusEvent) : (s.emit v).resetRequest = s.resetRequest := rfl
@[simp] theorem emit_q (s : State) (v : BusEvent) : (s.emit v).q = s.q := rfl
@[simp] theorem emit_lastQ (s : State) (v : BusEvent) : (s.emit v).lastQ = s.lastQ := rfl
@[simp] theorem emit_pfx (s : State) (v : BusEvent) : (s.emit v).pfx = s.pfx := rfl
@[simp] theorem emit_breakpoints (s : State) (v : BusEvent) : (s.emit v).breakpoints = s.breakpoints := rfl
@[simp] theorem emit_mem (s : State) (v : BusEvent) : (s.emit v).mem = s.mem := rfl
@[simp] theorem emit_bus (s : State) (v : BusEvent) : (s.emit v).bus = v :: s.bus := rfl
@[simp] theorem emit_portAnswers (s : State) (v : BusEvent) : (s.emit v).portAnswers = s.portAnswers := rfl
@[simp] theorem emit_ackAnswers (s : State) (v : BusEvent) : (s.emit v).ackAnswers = s.ackAnswers := rfl
@[simp] theorem emit_hookAnswers (s : State) (v : BusEvent) : (s.emit v).hookAnswers = s.hookAnswers := rfl
@[simp] theorem emit_draws (s : State) (v : BusEvent) : (s.emit v).draws = s.draws := rfl
@[simp] theorem emit_params (s : State) (v : BusEvent) : (s.emit v).params = s.params := rfl
@[simp] theorem emit_lastLdAIR (s : State) (v : BusEvent) : (s.emit v).lastLdAIR = s.lastLdAIR := rfl
@[simp] theorem emit_kind (s : State) (v : BusEvent) : (s.emit v).kind = s.kind := rfl

/-! `poke` -/
@[simp] theorem poke_a (s : State) (w : Word) (v : Byte) : (s.poke w v).a = s.a := rfl
@[simp] theorem poke_f (s : State) (w : Word) (v : Byte) : (s.poke w v).f = s.f := rfl
@[simp] theorem poke_b (s : State) (w : Word) (v : Byte) : (s.poke w v).b = s.b := rfl
@[simp] theorem poke_c (s : State) (w : Word) (v : Byte) : (s.poke w v).c = s.c := rfl
@[simp] theorem poke_d (s : State) (w : Word) (v : Byte) : (s.poke w v).d = s.d := rfl
@[simp] theorem poke_e (s : State) (w : Word) (v : Byte) : (s.poke w v).e = s.e := rfl
@[simp] theorem poke_h (s : State) (w : Word) (v : Byte) : (s.poke w v).h = s.h := rfl
@[simp] theorem poke_l (s : State) (w : Word) (v : Byte) : (s.poke w v).l = s.l := rfl
@[simp] theorem poke_aAlt (s : State) (w : Word) (v : Byte) : (s.poke w v).aAlt = s.aAlt := rfl
@[simp] theorem poke_fAlt (s : State) (w : Word) (v : Byte) : (s.poke w v).fAlt = s.fAlt := rfl
@[simp] theorem poke_bAlt (s : State) (w : Word) (v : Byte) : (s.poke w v).bAlt = s.bAlt := rfl
@[simp] theorem poke_cAlt (s : State) (w : Word) (v : Byte) : (s.poke w v).cAlt = s.cAlt := rfl
@[simp] theorem poke_dAlt (s : State) (w : Word) (v : Byte) : (s.poke w v).dAlt = s.dAlt := rfl
@[simp] theorem poke_eAlt (s : State) (w : Word) (v : Byte) : (s.poke w v).eAlt = s.eAlt := rfl
@[simp] theorem poke_hAlt (s : State) (w : Word) (v : Byte) : (s.poke w v).hAlt = s.hAlt := rfl
@[simp] theorem poke_lAlt (s : State) (w : Word) (v : Byte) : (s.poke w v).lAlt = s.lAlt := rfl
@[simp] theorem poke_ix (s : State) (w : Word) (v : Byte) : (s.poke w v).ix = s.ix := rfl
@[simp] theorem poke_iy (s : State) (w : Word) (v : Byte) : (s.poke w v).iy = s.iy := rfl
@[simp] theorem poke_sp (s : State) (w : Word) (v : Byte) : (s.poke w v).sp = s.sp := rfl
@[simp] theorem poke_pc (s : State) (w : Word) (v : Byte) : (s.poke w v).pc = s.pc := rfl
@[simp] theorem poke_i (s : State) (w : Word) (v : Byte) : (s.poke w v).i = s.i := rfl
@[simp] theorem poke_r (s : State) (w : Word) (v : Byte) : (s.poke w v).r = s.r := rfl
@[simp] theorem poke_memptr (s : State) (w : Word) (v : Byte) : (s.poke w v).memptr = s.memptr := rfl
@[simp] theorem poke_iff1 (s : State) (w : Word) (v : Byte) : (s.poke w v).iff1 = s.iff1 := rfl
@[simp] theorem poke_iff2 (s : State) (w : Word) (v : Byte) : (s.poke w v).iff2 = s.iff2 := rfl
@[simp] theorem poke_im (s : State) (w : Word) (v : Byte) : (s.poke w v).im = s.im := rfl
@[simp] theorem poke_pendingEI (s : State) (w : Word) (v : Byte) : (s.poke w v).pendingEI = s.pendingEI := rfl
@[simp] theorem poke_halted (s : State) (w : Word) (v : Byte) : (s.poke w v).halted = s.halted := rfl
@[simp] theorem poke_nmiPending (s : State) (w : Word) (v : Byte) : (s.poke w v).nmiPending = s.nmiPending := rfl
@[simp] theorem poke_intLine (s : State) (w : Word) (v : Byte) : (s.poke w v).intLine = s.intLine := rfl
@[simp] theorem poke_resetRequest (s : State) (w : Word) (v : Byte) : (s.poke w v).resetRequest = s.resetRequest := rfl
@[simp] theorem poke_q (s : State) (w : Word) (v : Byte) : (s.poke w v).q = s.q := rfl
@[simp] theorem poke_lastQ (s : State) (w : Word) (v : Byte) : (s.poke w v).lastQ = s.lastQ := rfl
@[simp] theorem poke_pfx (s : State) (w : Word) (v : Byte) : (s.poke w v).pfx = s.pfx := rfl
@[simp] theorem poke_breakpoints (s : State) (w : Word) (v : Byte) : (s.poke w v).breakpoints = s.breakpoints := rfl
@[simp] theorem poke_mem (s : State) (w : Word) (v : Byte) : (s.poke w v).mem = s.mem.write w.toNat v := rfl
@[simp] theorem poke_bus (s : State) (w : Word) (v : Byte) : (s.poke w v).bus = s.bus := rfl
@[simp] theorem poke_portAnswers (s : State) (w : Word) (v : Byte) : (s.poke w v).portAnswers = s.portAnswers := rfl
@[simp] theorem poke_ackAnswers (s : State) (w : Word) (v : Byte) : (s.poke w v).ackAnswers = s.ackAnswers := rfl
@[simp] theorem poke_hookAnswers (s : State) (w : Word) (v : Byte) : (s.poke w v).hookAnswers = s.hookAnswers := rfl
@[simp] theorem poke_draws (s : State) (w : Word) (v : Byte) : (s.poke w v).draws = s.draws := rfl
@[simp] theorem poke_params (s : State) (w : Word) (v : Byte) : (s.poke w v).params = s.params := rfl
@[simp] theorem poke_lastLdAIR (s : State) (w : Word) (v : Byte) : (s.poke w v).lastLdAIR = s.lastLdAIR := rfl
@[simp] theorem poke_kind (s : State) (w : Word) (v : Byte) : (s.poke w v).kind = s.kind := rfl

/-! `store` -/
@[simp] theorem store_a (s : State) (w : Word) (v : Byte) : (s.store w v).a = s.a := rfl
@[simp] theorem store_f (s : State) (w : Word) (v : Byte) : (s.store w v).f = s.f := rfl
@[simp] theorem store_b (s : State) (w : Word) (v : Byte) : (s.store w v).b = s.b := rfl
@[simp] theorem store_c (s : State) (w : Word) (v : Byte) : (s.store w v).c = s.c := rfl
@[simp] theorem store_d (s : State) (w : Word) (v : Byte) : (s.store w v).d = s.d := rfl
@[simp] theorem store_e (s : State) (w : Word) (v : Byte) : (s.store w v).e = s.e := rfl
@[simp] theorem store_h (s : State) (w : Word) (v : Byte) : (s.store w v).h = s.h := rfl
@[simp] theorem store_l (s : State) (w : Word) (v : Byte) : (s.store w v).l = s.l := rfl
@[simp] theorem store_aAlt (s : State) (w : Word) (v : Byte) : (s.store w v).aAlt = s.aAlt := rfl
@[simp] theorem store_fAlt (s : State) (w : Word) (v : Byte) : (s.store w v).fAlt = s.fAlt := rfl
@[simp] theorem store_bAlt (s : State) (w : Word) (v : Byte) : (s.store w v).bAlt = s.bAlt := rfl
@[simp] theorem store_cAlt (s : State) (w : Word) (v : Byte) : (s.store w v).cAlt = s.cAlt := rfl
@[simp] theorem store_dAlt (s : State) (w : Word) (v : Byte) : (s.store w v).dAlt = s.dAlt := rfl
@[simp] theorem store_eAlt (s : State) (w : Word) (v : Byte) : (s.store w v).eAlt = s.eAlt := rfl
@[simp] theorem store_hAlt (s : State) (w : Word) (v : Byte) : (s.store w v).hAlt = s.hAlt := rfl
@[simp] theorem store_lAlt (s : State) (w : Word) (v : Byte) : (s.store w v).lAlt = s.lAlt := rfl
@[simp] theorem store_ix (s : State) (w : Word) (v : Byte) : (s.store w v).ix = s.ix := rfl
@[simp] theorem store_iy (s : State) (w : Word) (v : Byte) : (s.store w v).iy = s.iy := rfl
@[simp] theorem store_sp (s : State) (w : Word) (v : Byte) : (s.store w v).sp = s.sp := rfl
@[simp] theorem store_pc (s : State) (w : Word) (v : Byte) : (s.store w v).pc = s.pc := rfl
@[simp] theorem store_i (s : State) (w : Word) (v : Byte) : (s.store w v).i = s.i := rfl
@[simp] theorem store_r (s : State) (w : Word) (v : Byte) : (s.store w v).r = s.r := rfl
@[simp] theorem store_memptr (s : State) (w : Word) (v : Byte) : (s.store w v).memptr = s.memptr := rfl
@[simp] theorem store_iff1 (s : State) (w : Word) (v : Byte) : (s.store w v).iff1 = s.iff1 := rfl
@[simp] theorem store_iff2 (s : State) (w : Word) (v : Byte) : (s.store w v).iff2 = s.iff2 := rfl
@[simp] theorem store_im (s : State) (w : Word) (v : Byte) : (s.store w v).im = s.im := rfl
@[simp] theorem store_pendingEI (s : State) (w : Word) (v : Byte) : (s.store w v).pendingEI = s.pendingEI := rfl
@[simp] theorem store_halted (s : State) (w : Word) (v : Byte) : (s.store w v).halted = s.halted := rfl
@[simp] theorem store_nmiPending (s : State) (w : Word) (v : Byte) : (s.store w v).nmiPending = s.nmiPending := rfl
@[simp] theorem store_intLine (s : State) (w : Word) (v : Byte) : (s.store w v).intLine = s.intLine := rfl
@[simp] theorem store_resetRequest (s : State) (w : Word) (v : Byte) : (s.store w v).resetRequest = s.resetRequest := rfl
@[simp] theorem store_q (s : State) (w : Word) (v : Byte) : (s.store w v).q = s.q := rfl
@[simp] theorem store_lastQ (s : State) (w : Word) (v : Byte) : (s.store w v).lastQ = s.lastQ := rfl
@[simp] theorem store_pfx (s : State) (w : Word) (v : Byte) : (s.store w v).pfx = s.pfx := rfl
@[simp] theorem store_breakpoints (s : State) (w : Word) (v : Byte) : (s.store w v).breakpoints = s.breakpoints := rfl
@[simp] theorem store_mem (s : State) (w : Word) (v : Byte) : (s.store w v).mem = s.mem.write w.toNat v := rfl
@[simp] theorem store_bus (s : State) (w : Word) (v : Byte) : (s.store w v).bus = .writeByte w v :: s.bus := rfl
@[simp] theorem store_portAnswers (s : State) (w : Word) (v : Byte) : (s.store w v).portAnswers = s.portAnswers := rfl
@[simp] theorem store_ackAnswers (s : State) (w : Word) (v : Byte) : (s.store w v).ackAnswers = s.ackAnswers := rfl
@[simp] theorem store_hookAnswers (s : State) (w : Word) (v : Byte) : (s.store w v).hookAnswers = s.hookAnswers := rfl
@[simp] theorem store_draws (s : State) (w : Word) (v : Byte) : (s.store w v).draws = s.draws := rfl
@[simp] theorem store_params (s : State) (w : Word) (v : Byte) : (s.store w v).params = s.params := rfl
@[simp] theorem store_lastLdAIR (s : State) (w : Word) (v : Byte) : (s.store w v).lastLdAIR = s.lastLdAIR := rfl
@[simp] theorem store_kind (s : State) (w : Word) (v : Byte) : (s.store w v).kind = s.kind := rfl

/-! `afterPortIn` -/
@[simp] theorem afterPortIn_a (s : State) (v : Word) : (s.afterPortIn v).a = s.a := rfl
@[simp] theorem afterPortIn_f (s : State) (v : Word) : (s.afterPortIn v).f = s.f := rfl
@[simp] theorem afterPortIn_b (s : State) (v : Word) : (s.afterPortIn v).b = s.b := rfl
@[simp] theorem afterPortIn_c (s : State) (v : Word) : (s.afterPortIn v).c = s.c := rfl
@[simp] theorem afterPortIn_d (s : State) (v : Word) : (s.afterPortIn v).d = s.d := rfl
@[simp] theorem afterPortIn_e (s : State) (v : Word) : (s.afterPortIn v).e = s.e := rfl
@[simp] theorem afterPortIn_h (s : State) (v : Word) : (s.afterPortIn v).h = s.h := rfl
@[simp] theorem afterPortIn_l (s : State) (v : Word) : (s.afterPortIn v).l = s.l := rfl
@[simp] theorem afterPortIn_aAlt (s : State) (v : Word) : (s.afterPortIn v).aAlt = s.aAlt := rfl
@[simp] theorem afterPortIn_fAlt (s : State) (v : Word) : (s.afterPortIn v).fAlt = s.fAlt := rfl
@[simp] theorem afterPortIn_bAlt (s : State) (v : Word) : (s.afterPortIn v).bAlt = s.bAlt := rfl
@[simp] theorem afterPortIn_cAlt (s : State) (v : Word) : (s.afterPortIn v).cAlt = s.cAlt := rfl
@[simp] theorem afterPortIn_dAlt (s : State) (v : Word) : (s.afterPortIn v).dAlt = s.dAlt := rfl
@[simp] theorem afterPortIn_eAlt (s : State) (v : Word) : (s.afterPortIn v).eAlt = s.eAlt := rfl
@[simp] theorem afterPortIn_hAlt (s : State) (v : Word) : (s.afterPortIn v).hAlt = s.hAlt := rfl
@[simp] theorem afterPortIn_lAlt (s : State) (v : Word) : (s.afterPortIn v).lAlt = s.lAlt := rfl
@[simp] theorem afterPortIn_ix (s : State) (v : Word) : (s.afterPortIn v).ix = s.ix := rfl
@[simp] theorem afterPortIn_iy (s : State) (v : Word) : (s.afterPortIn v).iy = s.iy := rfl
@[simp] theorem afterPortIn_sp (s : State) (v : Word) : (s.afterPortIn v).sp = s.sp := rfl
@[simp] theorem afterPortIn_pc (s : State) (v : Word) : (s.afterPortIn v).pc = s.pc := rfl
@[simp] theorem afterPortIn_i (s : State) (v : Word) : (s.afterPortIn v).i = s.i := rfl
@[simp] theorem afterPortIn_r (s : State) (v : Word) : (s.afterPortIn v).r = s.r := rfl
@[simp] theorem afterPortIn_memptr (s : State) (v : Word) : (s.afterPortIn v).memptr = s.memptr := rfl
@[simp] theorem afterPortIn_iff1 (s : State) (v : Word) : (s.afterPortIn v).iff1 = s.iff1 := rfl
@[simp] theorem afterPortIn_iff2 (s : State) (v : Word) : (s.afterPortIn v).iff2 = s.iff2 := rfl
@[simp] theorem afterPortIn_im (s : State) (v : Word) : (s.afterPortIn v).im = s.im := rfl
@[simp] theorem afterPortIn_pendingEI (s : State) (v : Word) : (s.afterPortIn v).pendingEI = s.pendingEI := rfl
@[simp] theorem afterPortIn_halted (s : State) (v : Word) : (s.afterPortIn v).halted = s.halted := rfl
@[simp] theorem afterPortIn_nmiPending (s : State) (v : Word) : (s.afterPortIn v).nmiPending = s.nmiPending := rfl
@[simp] theorem afterPortIn_intLine (s : State) (v : Word) : (s.afterPortIn v).intLine = s.intLine := rfl
@[simp] theorem afterPortIn_resetRequest (s : State) (v : Word) : (s.afterPortIn v).resetRequest = s.resetRequest := rfl
@[simp] theorem afterPortIn_q (s : State) (v : Word) : (s.afterPortIn v).q = s.q := rfl
@[simp] theorem afterPortIn_lastQ (s : State) (v : Word) : (s.afterPortIn v).lastQ = s.lastQ := rfl
@[simp] theorem afterPortIn_pfx (s : State) (v : Word) : (s.afterPortIn v).pfx = s.pfx := rfl
@[simp] theorem afterPortIn_breakpoints (s : State) (v : Word) : (s.afterPortIn v).breakpoints = s.breakpoints := rfl
@[simp] theorem afterPortIn_mem (s : State) (v : Word) : (s.afterPortIn v).mem = s.mem := rfl
@[simp] theorem afterPortIn_bus (s : State) (v : Word) : (s.afterPortIn v).bus = .portIn v :: s.bus := rfl
@[simp] theorem afterPortIn_portAnswers (s : State) (v : Word) : (s.afterPortIn v).portAnswers = s.portAnswers.tail := rfl
@[simp] theorem afterPortIn_ackAnswers (s : State) (v : Word) : (s.afterPortIn v).ackAnswers = s.ackAnswers := rfl
@[simp] theorem afterPortIn_hookAnswers (s : State) (v : Word) : (s.afterPortIn v).hookAnswers = s.hookAnswers := rfl
@[simp] theorem afterPortIn_draws (s : State) (v : Word) : (s.afterPortIn v).draws = s.draws + 1 := rfl
@[simp] theorem afterPortIn_params (s : State) (v : Word) : (s.afterPortIn v).params = s.params := rfl
@[simp] theorem afterPortIn_lastLdAIR (s : State) (v : Word) : (s.afterPortIn v).lastLdAIR = s.lastLdAIR := rfl
@[simp] theorem afterPortIn_kind (s : State) (v : Word) : (s.afterPortIn v).kind = s.kind := rfl

/-! `afterIntAck` -/
@[simp] theorem afterIntAck_a (s : State) : (s.afterIntAck).a = s.a := rfl
@[simp] theorem afterIntAck_f (s : State) : (s.afterIntAck).f = s.f := rfl
@[simp] theorem afterIntAck_b (s : State) : (s.afterIntAck).b = s.b := rfl
@[simp] theorem afterIntAck_c (s : State) : (s.afterIntAck).c = s.c := rfl
@[simp] theorem afterIntAck_d (s : State) : (s.afterIntAck).d = s.d := rfl
@[simp] theorem afterIntAck_e (s : State) : (s.afterIntAck).e = s.e := rfl
@[simp] theorem afterIntAck_h (s : State) : (s.afterIntAck).h = s.h := rfl
@[simp] theorem afterIntAck_l (s : State) : (s.afterIntAck).l = s.l := rfl
@[simp] theorem afterIntAck_aAlt (s : State) : (s.afterIntAck).aAlt = s.aAlt := rfl
@[simp] theorem afterIntAck_fAlt (s : State) : (s.afterIntAck).fAlt = s.fAlt := rfl
@[simp] theorem afterIntAck_bAlt (s : State) : (s.afterIntAck).bAlt = s.bAlt := rfl
@[simp] theorem afterIntAck_cAlt (s : State) : (s.afterIntAck).cAlt = s.cAlt := rfl
@[simp] theorem afterIntAck_dAlt (s : State) : (s.afterIntAck).dAlt = s.dAlt := rfl
@[simp] theorem afterIntAck_eAlt (s : State) : (s.afterIntAck).eAlt = s.eAlt := rfl
@[simp] theorem afterIntAck_hAlt (s : State) : (s.afterIntAck).hAlt = s.hAlt := rfl
@[simp] theorem afterIntAck_lAlt (s : State) : (s.afterIntAck).lAlt = s.lAlt := rfl
@[simp] theorem afterIntAck_ix (s : State) : (s.afterIntAck).ix = s.ix := rfl
@[simp] theorem afterIntAck_iy (s : State) : (s.afterIntAck).iy = s.iy := rfl
@[simp] theorem afterIntAck_sp (s : State) : (s.afterIntAck).sp = s.sp := rfl
@[simp] theorem afterIntAck_pc (s : State) : (s.afterIntAck).pc = s.pc := rfl
@[simp] theorem afterIntAck_i (s : State) : (s.afterIntAck).i = s.i := rfl
@[simp] theorem afterIntAck_r (s : State) : (s.afterIntAck).r = s.r := rfl
@[simp] theorem afterIntAck_memptr (s : State) : (s.afterIntAck).memptr = s.memptr := rfl
@[simp] theorem afterIntAck_iff1 (s : State) : (s.afterIntAck).iff1 = s.iff1 := rfl
@[simp] theorem afterIntAck_iff2 (s : State) : (s.afterIntAck).iff2 = s.iff2 := rfl
@[simp] theorem afterIntAck_im (s : State) : (s.afterIntAck).im = s.im := rfl
@[simp] theorem afterIntAck_pendingEI (s : State) : (s.afterIntAck).pendingEI = s.pendingEI := rfl
@[simp] theorem afterIntAck_halted (s : State) : (s.afterIntAck).halted = s.halted := rfl
@[simp] theorem afterIntAck_nmiPending (s : State) : (s.afterIntAck).nmiPending = s.nmiPending := rfl
@[simp] theorem afterIntAck_intLine (s : State) : (s.afterIntAck).intLine = s.intLine := rfl
@[simp] theorem afterIntAck_resetRequest (s : State) : (s.afterIntAck).resetRequest = s.resetRequest := rfl
@[simp] theorem afterIntAck_q (s : State) : (s.afterIntAck).q = s.q := rfl
@[simp] theorem afterIntAck_lastQ (s : State) : (s.afterIntAck).lastQ = s.lastQ := rfl
@[simp] theorem afterIntAck_pfx (s : State) : (s.afterIntAck).pfx = s.pfx := rfl
@[simp] theorem afterIntAck_breakpoints (s : State) : (s.afterIntAck).breakpoints = s.breakpoints := rfl
@[simp] theorem afterIntAck_mem (s : State) : (s.afterIntAck).mem = s.mem := rfl
@[simp] theorem afterIntAck_bus (s : State) : (s.afterIntAck).bus = .intAck :: s.bus := rfl
@[simp] theorem afterIntAck_portAnswers (s : State) : (s.afterIntAck).portAnswers = s.portAnswers := rfl
@[simp] theorem afterIntAck_ackAnswers (s : State) : (s.afterIntAck).ackAnswers = s.ackAnswers.tail := rfl
@[simp] theorem afterIntAck_hookAnswers (s : State) : (s.afterIntAck).hookAnswers = s.hookAnswers := rfl
@[simp] theorem afterIntAck_draws (s : State) : (s.afterIntAck).draws = s.draws + 1 := rfl
@[simp] theorem afterIntAck_params (s : State) : (s.afterIntAck).params = s.params := rfl
@[simp] theorem afterIntAck_lastLdAIR (s : State) : (s.afterIntAck).lastLdAIR = s.lastLdAIR := rfl
@[simp] theorem afterIntAck_kind (s : State) : (s.afterIntAck).kind = s.kind := rfl

/-! `afterHook` -/
@[simp] theorem afterHook_a (s : State) (w : Word) (v : Byte) : (s.afterHook w v).a = s.a := rfl
@[simp] theorem afterHook_f (s : State) (w : Word) (v : Byte) : (s.afterHook w v).f = s.f := rfl
@[simp] theorem afterHook_b (s : State) (w : Word) (v : Byte) : (s.afterHook w v).b = s.b := rfl
@[simp] theorem afterHook_c (s : State) (w : Word) (v : Byte) : (s.afterHook w v).c = s.c := rfl
@[simp] theorem afterHook_d (s : State) (w : Word) (v : Byte) : (s.afterHook w v).d = s.d := rfl
@[simp] theorem afterHook_e (s : State) (w : Word) (v : Byte) : (s.afterHook w v).e = s.e := rfl
@[simp] theorem afterHook_h (s : State) (w : Word) (v : Byte) : (s.afterHook w v).h = s.h := rfl
@[simp] theorem afterHook_l (s : State) (w : Word) (v : Byte) : (s.afterHook w v).l = s.l := rfl
@[simp] theorem afterHook_aAlt (s : State) (w : Word) (v : Byte) : (s.afterHook w v).aAlt = s.aAlt := rfl
@[simp] theorem afterHook_fAlt (s : State) (w : Word) (v : Byte) : (s.afterHook w v).fAlt = s.fAlt := rfl
@[simp] theorem afterHook_bAlt (s : State) (w : Word) (v : Byte) : (s.afterHook w v).bAlt = s.bAlt := rfl
@[simp] theorem afterHook_cAlt (s : State) (w : Word) (v : Byte) : (s.afterHook w v).cAlt = s.cAlt := rfl
@[simp] theorem afterHook_dAlt (s : State) (w : Word) (v : Byte) : (s.afterHook w v).dAlt = s.dAlt := rfl
@[simp] theorem afterHook_eAlt (s : State) (w : Word) (v : Byte) : (s.afterHook w v).eAlt = s.eAlt := rfl
@[simp] theorem afterHook_hAlt (s : State) (w : Word) (v : Byte) : (s.afterHook w v).hAlt = s.hAlt := rfl
@[simp] theorem afterHook_lAlt (s : State) (w : Word) (v : Byte) : (s.afterHook w v).lAlt = s.lAlt := rfl
@[simp] theorem afterHook_ix (s : State) (w : Word) (v : Byte) : (s.afterHook w v).ix = s.ix := rfl
@[simp] theorem afterHook_iy (s : State) (w : Word) (v : Byte) : (s.afterHook w v).iy = s.iy := rfl
@[simp] theorem afterHook_sp (s : State) (w : Word) (v : Byte) : (s.afterHook w v).sp = s.sp := rfl
@[simp] theorem afterHook_pc (s : State) (w : Word) (v : Byte) : (s.afterHook w v).pc = s.pc := rfl
@[simp] theorem afterHook_i (s : State) (w : Word) (v : Byte) : (s.afterHook w v).i = s.i := rfl
@[simp] theorem afterHook_r (s : State) (w : Word) (v : Byte) : (s.afterHook w v).r = s.r := rfl
@[simp] theorem afterHook_memptr (s : State) (w : Word) (v : Byte) : (s.afterHook w v).memptr = s.memptr := rfl
@[simp] theorem afterHook_iff1 (s : State) (w : Word) (v : Byte) : (s.afterHook w v).iff1 = s.iff1 := rfl
@[simp] theorem afterHook_iff2 (s : State) (w : Word) (v : Byte) : (s.afterHook w v).iff2 = s.iff2 := rfl
@[simp] theorem afterHook_im (s : State) (w : Word) (v : Byte) : (s.afterHook w v).im = s.im := rfl
@[simp] theorem afterHook_pendingEI (s : State) (w : Word) (v : Byte) : (s.afterHook w v).pendingEI = s.pendingEI := rfl
@[simp] theorem afterHook_halted (s : State) (w : Word) (v : Byte) : (s.afterHook w v).halted = s.halted := rfl
@[simp] theorem afterHook_nmiPending (s : State) (w : Word) (v : Byte) : (s.afterHook w v).nmiPending = s.nmiPending := rfl
@[simp] theorem afterHook_intLine (s : State) (w : Word) (v : Byte) : (s.afterHook w v).intLine = s.intLine := rfl
@[simp] theorem afterHook_resetRequest (s : State) (w : Word) (v : Byte) : (s.afterHook w v).resetRequest = s.resetRequest := rfl
@[simp] theorem afterHook_q (s : State) (w : Word) (v : Byte) : (s.afterHook w v).q = s.q := rfl
@[simp] theorem afterHook_lastQ (s : State) (w : Word) (v : Byte) : (s.afterHook w v).lastQ = s.lastQ := rfl
@[simp] theorem afterHook_pfx (s : State) (w : Word) (v : Byte) : (s.afterHook w v).pfx = s.pfx := rfl
@[simp] theorem afterHook_breakpoints (s : State) (w : Word) (v : Byte) : (s.afterHook w v).breakpoints = s.breakpoints := rfl
@[simp] theorem afterHook_mem (s : State) (w : Word) (v : Byte) : (s.afterHook w v).mem = s.mem := rfl
@[simp] theorem afterHook_bus (s : State) (w : Word) (v : Byte) : (s.afterHook w v).bus = .breakpointHook w v :: s.bus := rfl
@[simp] theorem afterHook_portAnswers (s : State) (w : Word) (v : Byte) : (s.afterHook w v).portAnswers = s.portAnswers := rfl
@[simp] theorem afterHook_ackAnswers (s : State) (w : Word) (v : Byte) : (s.afterHook w v).ackAnswers = s.ackAnswers := rfl
@[simp] theorem afterHook_hookAnswers (s : State) (w : Word) (v : Byte) : (s.afterHook w v).hookAnswers =
    if s.params.breakpointHook = .oracle then s.hookAnswers.tail else s.hookAnswers := rfl
@[simp] theorem afterHook_draws (s : State) (w : Word) (v : Byte) : (s.afterHook w v).draws =
    if s.params.breakpointHook = .oracle then s.draws + 1 else s.draws := rfl
@[simp] theorem afterHook_params (s : State) (w : Word) (v : Byte) : (s.afterHook w v).params = s.params := rfl
@[simp] theorem afterHook_lastLdAIR (s : State) (w : Word) (v : Byte) : (s.afterHook w v).lastLdAIR = s.lastLdAIR := rfl
@[simp] theorem afterHook_kind (s : State) (w : Word) (v : Byte) : (s.afterHook w v).kind = s.kind := rfl

/-! `clearForInstruction` -/
@[simp] theorem clearForInstruction_a (s : State) : (s.clearForInstruction).a = s.a := rfl
@[simp] theorem clearForInstruction_f (s : State) : (s.clearForInstruction).f = s.f := rfl
@[simp] theorem clearForInstruction_b (s : State) : (s.clearForInstruction).b = s.b := rfl
@[simp] theorem clearForInstruction_c (s : State) : (s.clearForInstruction).c = s.c := rfl
@[simp] theorem clearForInstruction_d (s : State) : (s.clearForInstruction).d = s.d := rfl
@[simp] theorem clearForInstruction_e (s : State) : (s.clearForInstruction).e = s.e := rfl
@[simp] theorem clearForInstruction_h (s : State) : (s.clearForInstruction).h = s.h := rfl
@[simp] theorem clearForInstruction_l (s : State) : (s.clearForInstruction).l = s.l := rfl
@[simp] theorem clearForInstruction_aAlt (s : State) : (s.clearForInstruction).aAlt = s.aAlt := rfl
@[simp] theorem clearForInstruction_fAlt (s : State) : (s.clearForInstruction).fAlt = s.fAlt := rfl
@[simp] theorem clearForInstruction_bAlt (s : State) : (s.clearForInstruction).bAlt = s.bAlt := rfl
@[simp] theorem clearForInstruction_cAlt (s : State) : (s.clearForInstruction).cAlt = s.cAlt := rfl
@[simp] theorem clearForInstruction_dAlt (s : State) : (s.clearForInstruction).dAlt = s.dAlt := rfl
@[simp] theorem clearForInstruction_eAlt (s : State) : (s.clearForInstruction).eAlt = s.eAlt := rfl
@[simp] theorem clearForInstruction_hAlt (s : State) : (s.clearForInstruction).hAlt = s.hAlt := rfl
@[simp] theorem clearForInstruction_lAlt (s : State) : (s.clearForInstruction).lAlt = s.lAlt := rfl
@[simp] theorem clearForInstruction_ix (s : State) : (s.clearForInstruction).ix = s.ix := rfl
@[simp] theorem clearForInstruction_iy (s : State) : (s.clearForInstruction).iy = s.iy := rfl
@[simp] theorem clearForInstruction_sp (s : State) : (s.clearForInstruction).sp = s.sp := rfl
@[simp] theorem clearForInstruction_pc (s : State) : (s.clearForInstruction).pc = s.pc := rfl
@[simp] theorem clearForInstruction_i (s : State) : (s.clearForInstruction).i = s.i := rfl
@[simp] theorem clearForInstruction_r (s : State) : (s.clearForInstruction).r = s.r := rfl
@[simp] theorem clearForInstruction_memptr (s : State) : (s.clearForInstruction).memptr = s.memptr := rfl
@[simp] theorem clearForInstruction_iff1 (s : State) : (s.clearForInstruction).iff1 = s.iff1 := rfl
@[simp] theorem clearForInstruction_iff2 (s : State) : (s.clearForInstruction).iff2 = s.iff2 := rfl
@[simp] theorem clearForInstruction_im (s : State) : (s.clearForInstruction).im = s.im := rfl
@[simp] theorem clearForInstruction_pendingEI (s : State) : (s.clearForInstruction).pendingEI = false := rfl
@[simp] theorem clearForInstruction_halted (s : State) : (s.clearForInstruction).halted = s.halted := rfl
@[simp] theorem clearForInstruction_nmiPending (s : State) : (s.clearForInstruction).nmiPending = s.nmiPending := rfl
@[simp] theorem clearForInstruction_intLine (s : State) : (s.clearForInstruction).intLine = s.intLine := rfl
@[simp] theorem clearForInstruction_resetRequest (s : State) : (s.clearForInstruction).resetRequest = s.resetRequest := rfl
@[simp] theorem clearForInstruction_q (s : State) : (s.clearForInstruction).q = false := rfl
@[simp] theorem clearForInstruction_lastQ (s : State) : (s.clearForInstruction).lastQ = s.lastQ := rfl
@[simp] theorem clearForInstruction_pfx (s : State) : (s.clearForInstruction).pfx = s.pfx := rfl
@[simp] theorem clearForInstruction_breakpoints (s : State) : (s.clearForInstruction).breakpoints = s.breakpoints := rfl
@[simp] theorem clearForInstruction_mem (s : State) : (s.clearForInstruction).mem = s.mem := rfl
@[simp] theorem clearForInstruction_bus (s : State) : (s.clearForInstruction).bus = s.bus := rfl
@[simp] theorem clearForInstruction_portAnswers (s : State) : (s.clearForInstruction).portAnswers = s.portAnswers := rfl
@[simp] theorem clearForInstruction_ackAnswers (s : State) : (s.clearForInstruction).ackAnswers = s.ackAnswers := rfl
@[simp] theorem clearForInstruction_hookAnswers (s : State) : (s.clearForInstruction).hookAnswers = s.hookAnswers := rfl
@[simp] theorem clearForInstruction_draws (s : State) : (s.clearForInstruction).draws = s.draws := rfl
@[simp] theorem clearForInstruction_params (s : State) : (s.clearForInstruction).params = s.params := rfl
@[simp] theorem clearForInstruction_lastLdAIR (s : State) : (s.clearForInstruction).lastLdAIR = false := rfl
@[simp] theorem clearForInstruction_kind (s : State) : (s.clearForInstruction).kind = s.kind := rfl

/-! `setReg8`, `setIdx`, `setIdxHalf`: the fields that are no general or index register -/
@[simp] theorem setReg8_f (s : State) (k : Reg8) (v : Byte) : (s.setReg8 k v).f = s.f := by cases k <;> rfl
@[simp] theorem setReg8_aAlt (s : State) (k : Reg8) (v : Byte) : (s.setReg8 k v).aAlt = s.aAlt := by cases k <;> rfl
@[simp] theorem setReg8_fAlt (s : State) (k : Reg8) (v : Byte) : (s.setReg8 k v).fAlt = s.fAlt := by cases k <;> rfl
@[simp] theorem setReg8_bAlt (s : State) (k : Reg8) (v : Byte) : (s.setReg8 k v).bAlt = s.bAlt := by cases k <;> rfl
@[simp] theorem setReg8_cAlt (s : State) (k : Reg8) (v : Byte) : (s.setReg8 k v).cAlt = s.cAlt := by cases k <;> rfl
@[simp] theorem setReg8_dAlt (s : State) (k : Reg8) (v : Byte) : (s.setReg8 k v).dAlt = s.dAlt := by cases k <;> rfl
@[simp] theorem setReg8_eAlt (s : State) (k : Reg8) (v : Byte) : (s.setReg8 k v).eAlt = s.eAlt := by cases k <;> rfl
@[simp] theorem setReg8_hAlt (s : State) (k : Reg8) (v : Byte) : (s.setReg8 k v).hAlt = s.hAlt := by cases k <;> rfl
@[simp] theorem setReg8_lAlt (s : State) (k : Reg8) (v : Byte) : (s.setReg8 k v).lAlt = s.lAlt := by cases k <;> rfl
@[simp] theorem setReg8_ix (s : State) (k : Reg8) (v : Byte) : (s.setReg8 k v).ix = s.ix := by cases k <;> rfl
@[simp] theorem setReg8_iy (s : State) (k : Reg8) (v : Byte) : (s.setReg8 k v).iy = s.iy := by cases k <;> rfl
@[simp] theorem setReg8_sp (s : State) (k : Reg8) (v : Byte) : (s.setReg8 k v).sp = s.sp := by cases k <;> rfl
@[simp] theorem setReg8_pc (s : State) (k : Reg8) (v : Byte) : (s.setReg8 k v).pc = s.pc := by cases k <;> rfl
@[simp] theorem setReg8_i (s : State) (k : Reg8) (v : Byte) : (s.setReg8 k v).i = s.i := by cases k <;> rfl
@[simp] theorem setReg8_r (s : State) (k : Reg8) (v : Byte) : (s.setReg8 k v).r = s.r := by cases k <;> rfl
@[simp] theorem setReg8_memptr (s : State) (k : Reg8) (v : Byte) : (s.setReg8 k v).memptr = s.memptr := by cases k <;> rfl
@[simp] theorem setReg8_iff1 (s : State) (k : Reg8) (v : Byte) : (s.setReg8 k v).iff1 = s.iff1 := by cases k <;> rfl
@[simp] theorem setReg8_iff2 (s : State) (k : Reg8) (v : Byte) : (s.setReg8 k v).iff2 = s.iff2 := by cases k <;> rfl
@[simp] theorem setReg8_im (s : State) (k : Reg8) (v : Byte) : (s.setReg8 k v).im = s.im := by cases k <;> rfl
@[simp] theorem setReg8_pendingEI (s : State) (k : Reg8) (v : Byte) : (s.setReg8 k v).pendingEI = s.pendingEI := by cases k <;> rfl
@[simp] theorem setReg8_halted (s : State) (k : Reg8) (v : Byte) : (s.setReg8 k v).halted = s.halted := by cases k <;> rfl
@[simp] theorem setReg8_nmiPending (s : State) (k : Reg8) (v : Byte) : (s.setReg8 k v).nmiPending = s.nmiPending := by cases k <;> rfl
@[simp] theorem setReg8_intLine (s : State) (k : Reg8) (v : Byte) : (s.setReg8 k v).intLine = s.intLine := by cases k <;> rfl
@[simp] theorem setReg8_resetRequest (s : State) (k : Reg8) (v : Byte) : (s.setReg8 k v).resetRequest = s.resetRequest := by cases k <;> rfl
@[simp] theorem setReg8_q (s : State) (k : Reg8) (v : Byte) : (s.setReg8 k v).q = s.q := by cases k <;> rfl
@[simp] theorem setReg8_lastQ (s : State) (k : Reg8) (v : Byte) : (s.setReg8 k v).lastQ = s.lastQ := by cases k <;> rfl
@[simp] theorem setReg8_pfx (s : State) (k : Reg8) (v : Byte) : (s.setReg8 k v).pfx = s.pfx := by cases k <;> rfl
@[simp] theorem setReg8_breakpoints (s : State) (k : Reg8) (v : Byte) : (s.setReg8 k v).breakpoints = s.breakpoints := by cases k <;> rfl
@[simp] theorem setReg8_mem (s : State) (k : Reg8) (v : Byte) : (s.setReg8 k v).mem = s.mem := by cases k <;> rfl
@[simp] theorem setReg8_bus (s : State) (k : Reg8) (v : Byte) : (s.setReg8 k v).bus = s.bus := by cases k <;> rfl
@[simp] theorem setReg8_portAnswers (s : State) (k : Reg8) (v : Byte) : (s.setReg8 k v).portAnswers = s.portAnswers := by cases k <;> rfl
@[simp] theorem setReg8_ackAnswers (s : State) (k : Reg8) (v : Byte) : (s.setReg8 k v).ackAnswers = s.ackAnswers := by cases k <;> rfl
@[simp] theorem setReg8_hookAnswers (s : State) (k : Reg8) (v : Byte) : (s.setReg8 k v).hookAnswers = s.hookAnswers := by cases k <;> rfl
@[simp] theorem setReg8_draws (s : State) (k : Reg8) (v : Byte) : (s.setReg8 k v).draws = s.draws := by cases k <;> rfl
@[simp] theorem setReg8_params (s : State) (k : Reg8) (v : Byte) : (s.setReg8 k v).params = s.params := by cases k <;> rfl
@[simp] theorem setReg8_lastLdAIR (s : State) (k : Reg8) (v : Byte) : (s.setReg8 k v).lastLdAIR = s.lastLdAIR := by cases k <;> rfl
@[simp] theorem setReg8_kind (s : State) (k : Reg8) (v : Byte) : (s.setReg8 k v).kind = s.kind := by cases k <;> rfl
@[simp] theorem setIdx_a (s : State) (k : Idx) (v : Word) : (s.setIdx k v).a = s.a := by cases k <;> rfl
@[simp] theorem setIdx_f (s : State) (k : Idx) (v : Word) : (s.setIdx k v).f = s.f := by cases k <;> rfl
@[simp] theorem setIdx_b (s : State) (k : Idx) (v : Word) : (s.setIdx k v).b = s.b := by cases k <;> rfl
@[simp] theorem setIdx_c (s : State) (k : Idx) (v : Word) : (s.setIdx k v).c = s.c := by cases k <;> rfl
@[simp] theorem setIdx_d (s : State) (k : Idx) (v : Word) : (s.setIdx k v).d = s.d := by cases k <;> rfl
@[simp] theorem setIdx_e (s : State) (k : Idx) (v : Word) : (s.setIdx k v).e = s.e := by cases k <;> rfl
@[simp] theorem setIdx_h (s : State) (k : Idx) (v : Word) : (s.setIdx k v).h = s.h := by cases k <;> rfl
@[simp] theorem setIdx_l (s : State) (k : Idx) (v : Word) : (s.setIdx k v).l = s.l := by cases k <;> rfl
@[simp] theorem setIdx_aAlt (s : State) (k : Idx) (v : Word) : (s.setIdx k v).aAlt = s.aAlt := by cases k <;> rfl
@[simp] theorem setIdx_fAlt (s : State) (k : Idx) (v : Word) : (s.setIdx k v).fAlt = s.fAlt := by cases k <;> rfl
@[simp] theorem setIdx_bAlt (s : State) (k : Idx) (v : Word) : (s.setIdx k v).bAlt = s.bAlt := by cases k <;> rfl
@[simp] theorem setIdx_cAlt (s : State) (k : Idx) (v : Word) : (s.setIdx k v).cAlt = s.cAlt := by cases k <;> rfl
@[simp] theorem setIdx_dAlt (s : State) (k : Idx) (v : Word) : (s.setIdx k v).dAlt = s.dAlt := by cases k <;> rfl
@[simp] theorem setIdx_eAlt (s : State) (k : Idx) (v : Word) : (s.setIdx k v).eAlt = s.eAlt := by cases k <;> rfl
@[simp] theorem setIdx_hAlt (s : State) (k : Idx) (v : Word) : (s.setIdx k v).hAlt = s.hAlt := by cases k <;> rfl
@[simp] theorem setIdx_lAlt (s : State) (k : Idx) (v : Word) : (s.setIdx k v).lAlt = s.lAlt := by cases k <;> rfl
@[simp] theorem setIdx_sp (s : State) (k : Idx) (v : Word) : (s.setIdx k v).sp = s.sp := by cases k <;> rfl
@[simp] theorem setIdx_pc (s : State) (k : Idx) (v : Word) : (s.setIdx k v).pc = s.pc := by cases k <;> rfl
@[simp] theorem setIdx_i (s : State) (k : Idx) (v : Word) : (s.setIdx k v).i = s.i := by cases k <;> rfl
@[simp] theorem setIdx_r (s : State) (k : Idx) (v : Word) : (s.setIdx k v).r = s.r := by cases k <;> rfl
@[simp] theorem setIdx_memptr (s : State) (k : Idx) (v : Word) : (s.setIdx k v).memptr = s.memptr := by cases k <;> rfl
@[simp] theorem setIdx_iff1 (s : State) (k : Idx) (v : Word) : (s.setIdx k v).iff1 = s.iff1 := by cases k <;> rfl
@[simp] theorem setIdx_iff2 (s : State) (k : Idx) (v : Word) : (s.setIdx k v).iff2 = s.iff2 := by cases k <;> rfl
@[simp] theorem setIdx_im (s : State) (k : Idx) (v : Word) : (s.setIdx k v).im = s.im := by cases k <;> rfl
@[simp] theorem setIdx_pendingEI (s : State) (k : Idx) (v : Word) : (s.setIdx k v).pendingEI = s.pendingEI := by cases k <;> rfl
@[simp] theorem setIdx_halted (s : State) (k : Idx) (v : Word) : (s.setIdx k v).halted = s.halted := by cases k <;> rfl
@[simp] theorem setIdx_nmiPending (s : State) (k : Idx) (v : Word) : (s.setIdx k v).nmiPending = s.nmiPending := by cases k <;> rfl
@[simp] theorem setIdx_intLine (s : State) (k : Idx) (v : Word) : (s.setIdx k v).intLine = s.intLine := by cases k <;> rfl
@[simp] theorem setIdx_resetRequest (s : State) (k : Idx) (v : Word) : (s.setIdx k v).resetRequest = s.resetRequest := by cases k <;> rfl
@[simp] theorem setIdx_q (s : State) (k : Idx) (v : Word) : (s.setIdx k v).q = s.q := by cases k <;> rfl
@[simp] theorem setIdx_lastQ (s : State) (k : Idx) (v : Word) : (s.setIdx k v).lastQ = s.lastQ := by cases k <;> rfl
@[simp] theorem setIdx_pfx (s : State) (k : Idx) (v : Word) : (s.setIdx k v).pfx = s.pfx := by cases k <;> rfl
@[simp] theorem setIdx_breakpoints (s : State) (k : Idx) (v : Word) : (s.setIdx k v).breakpoints = s.breakpoints := by cases k <;> rfl
@[simp] theorem setIdx_mem (s : State) (k : Idx) (v : Word) : (s.setIdx k v).mem = s.mem := by cases k <;> rfl
@[simp] theorem setIdx_bus (s : State) (k : Idx) (v : Word) : (s.setIdx k v).bus = s.bus := by cases k <;> rfl
@[simp] theorem setIdx_portAnswers (s : State) (k : Idx) (v : Word) : (s.setIdx k v).portAnswers = s.portAnswers := by cases k <;> rfl
@[simp] theorem setIdx_ackAnswers (s : State) (k : Idx) (v : Word) : (s.setIdx k v).ackAnswers = s.ackAnswers := by cases k <;> rfl
@[simp] theorem setIdx_hookAnswers (s : State) (k : Idx) (v : Word) : (s.setIdx k v).hookAnswers = s.hookAnswers := by cases k <;> rfl
@[simp] theorem setIdx_draws (s : State) (k : Idx) (v : Word) : (s.setIdx k v).draws = s.draws := by cases k <;> rfl
@[simp] theorem setIdx_params (s : State) (k : Idx) (v : Word) : (s.setIdx k v).params = s.params := by cases k <;> rfl
@[simp] theorem setIdx_lastLdAIR (s : State) (k : Idx) (v : Word) : (s.setIdx k v).lastLdAIR = s.lastLdAIR := by cases k <;> rfl
@[simp] theorem setIdx_kind (s : State) (k : Idx) (v : Word) : (s.setIdx k v).kind = s.kind := by cases k <;> rfl
@[simp] theorem setIdxHalf_a (s : State) (k : Idx) (j : Half) (v : Byte) : (s.setIdxHalf k j v).a = s.a := by cases k <;> cases j <;> rfl
@[simp] theorem setIdxHalf_f (s : State) (k : Idx) (j : Half) (v : Byte) : (s.setIdxHalf k j v).f = s.f := by cases k <;> cases j <;> rfl
@[simp] theorem setIdxHalf_b (s : State) (k : Idx) (j : Half) (v : Byte) : (s.setIdxHalf k j v).b = s.b := by cases k <;> cases j <;> rfl
@[simp] theorem setIdxHalf_c (s : State) (k : Idx) (j : Half) (v : Byte) : (s.setIdxHalf k j v).c = s.c := by cases k <;> cases j <;> rfl
@[simp] theorem setIdxHalf_d (s : State) (k : Idx) (j : Half) (v : Byte) : (s.setIdxHalf k j v).d = s.d := by cases k <;> cases j <;> rfl
@[simp] theorem setIdxHalf_e (s : State) (k : Idx) (j : Half) (v : Byte) : (s.setIdxHalf k j v).e = s.e := by cases k <;> cases j <;> rfl
@[simp] theorem setIdxHalf_h (s : State) (k : Idx) (j : Half) (v : Byte) : (s.setIdxHalf k j v).h = s.h := by cases k <;> cases j <;> rfl
@[simp] theorem setIdxHalf_l (s : State) (k : Idx) (j : Half) (v : Byte) : (s.setIdxHalf k j v).l = s.l := by cases k <;> cases j <;> rfl
@[simp] theorem setIdxHalf_aAlt (s : State) (k : Idx) (j : Half) (v : Byte) : (s.setIdxHalf k j v).aAlt = s.aAlt := by cases k <;> cases j <;> rfl
@[simp] theorem setIdxHalf_fAlt (s : State) (k : Idx) (j : Half) (v : Byte) : (s.setIdxHalf k j v).fAlt = s.fAlt := by cases k <;> cases j <;> rfl
@[simp] theorem setIdxHalf_bAlt (s : State) (k : Idx) (j : Half) (v : Byte) : (s.setIdxHalf k j v).bAlt = s.bAlt := by cases k <;> cases j <;> rfl
@[simp] theorem setIdxHalf_cAlt (s : State) (k : Idx) (j : Half) (v : Byte) : (s.setIdxHalf k j v).cAlt = s.cAlt := by cases k <;> cases j <;> rfl
@[simp] theorem setIdxHalf_dAlt (s : State) (k : Idx) (j : Half) (v : Byte) : (s.setIdxHalf k j v).dAlt = s.dAlt := by cases k <;> cases j <;> rfl
@[simp] theorem setIdxHalf_eAlt (s : State) (k : Idx) (j : Half) (v : Byte) : (s.setIdxHalf k j v).eAlt = s.eAlt := by cases k <;> cases j <;> rfl
@[simp] theorem setIdxHalf_hAlt (s : State) (k : Idx) (j : Half) (v : Byte) : (s.setIdxHalf k j v).hAlt = s.hAlt := by cases k <;> cases j <;> rfl
@[simp] theorem setIdxHalf_lAlt (s : State) (k : Idx) (j : Half) (v : Byte) : (s.setIdxHalf k j v).lAlt = s.lAlt := by cases k <;> cases j <;> rfl
@[simp] theorem setIdxHalf_sp (s : State) (k : Idx) (j : Half) (v : Byte) : (s.setIdxHalf k j v).sp = s.sp := by cases k <;> cases j <;> rfl
@[simp] theorem setIdxHalf_pc (s : State) (k : Idx) (j : Half) (v : Byte) : (s.setIdxHalf k j v).pc = s.pc := by cases k <;> cases j <;> rfl
@[simp] theorem setIdxHalf_i (s : State) (k : Idx) (j : Half) (v : Byte) : (s.setIdxHalf k j v).i = s.i := by cases k <;> cases j <;> rfl
@[simp] theorem setIdxHalf_r (s : State) (k : Idx) (j : Half) (v : Byte) : (s.setIdxHalf k j v).r = s.r := by cases k <;> cases j <;> rfl
@[simp] theorem setIdxHalf_memptr (s : State) (k : Idx) (j : Half) (v : Byte) : (s.setIdxHalf k j v).memptr = s.memptr := by cases k <;> cases j <;> rfl
@[simp] theorem setIdxHalf_iff1 (s : State) (k : Idx) (j : Half) (v : Byte) : (s.setIdxHalf k j v).iff1 = s.iff1 := by cases k <;> cases j <;> rfl
@[simp] theorem setIdxHalf_iff2 (s : State) (k : Idx) (j : Half) (v : Byte) : (s.setIdxHalf k j v).iff2 = s.iff2 := by cases k <;> cases j <;> rfl
@[simp] theorem setIdxHalf_im (s : State) (k : Idx) (j : Half) (v : Byte) : (s.setIdxHalf k j v).im = s.im := by cases k <;> cases j <;> rfl
@[simp] theorem setIdxHalf_pendingEI (s : State) (k : Idx) (j : Half) (v : Byte) : (s.setIdxHalf k j v).pendingEI = s.pendingEI := by cases k <;> cases j <;> rfl
@[simp] theorem setIdxHalf_halted (s : State) (k : Idx) (j : Half) (v : Byte) : (s.setIdxHalf k j v).halted = s.halted := by cases k <;> cases j <;> rfl
@[simp] theorem setIdxHalf_nmiPending (s : State) (k : Idx) (j : Half) (v : Byte) : (s.setIdxHalf k j v).nmiPending = s.nmiPending := by cases k <;> cases j <;> rfl
@[simp] theorem setIdxHalf_intLine (s : State) (k : Idx) (j : Half) (v : Byte) : (s.setIdxHalf k j v).intLine = s.intLine := by cases k <;> cases j <;> rfl
@[simp] theorem setIdxHalf_resetRequest (s : State) (k : Idx) (j : Half) (v : Byte) : (s.setIdxHalf k j v).resetRequest = s.resetRequest := by cases k <;> cases j <;> rfl
@[simp] theorem setIdxHalf_q (s : State) (k : Idx) (j : Half) (v : Byte) : (s.setIdxHalf k j v).q = s.q := by cases k <;> cases j <;> rfl
@[simp] theorem setIdxHalf_lastQ (s : State) (k : Idx) (j : Half) (v : Byte) : (s.setIdxHalf k j v).lastQ = s.lastQ := by cases k <;> cases j <;> rfl
@[simp] theorem setIdxHalf_pfx (s : State) (k : Idx) (j : Half) (v : Byte) : (s.setIdxHalf k j v).pfx = s.pfx := by cases k <;> cases j <;> rfl
@[simp] theorem setIdxHalf_breakpoints (s : State) (k : Idx) (j : Half) (v : Byte) : (s.setIdxHalf k j v).breakpoints = s.breakpoints := by cases k <;> cases j <;> rfl
@[simp] theorem setIdxHalf_mem (s : State) (k : Idx) (j : Half) (v : Byte) : (s.setIdxHalf k j v).mem = s.mem := by cases k <;> cases j <;> rfl
@[simp] theorem setIdxHalf_bus (s : State) (k : Idx) (j : Half) (v : Byte) : (s.setIdxHalf k j v).bus = s.bus := by cases k <;> cases j <;> rfl
@[simp] theorem setIdxHalf_portAnswers (s : State) (k : Idx) (j : Half) (v : Byte) : (s.setIdxHalf k j v).portAnswers = s.portAnswers := by cases k <;> cases j <;> rfl
@[simp] theorem setIdxHalf_ackAnswers (s : State) (k : Idx) (j : Half) (v : Byte) : (s.setIdxHalf k j v).ackAnswers = s.ackAnswers := by cases k <;> cases j <;> rfl
@[simp] theorem setIdxHalf_hookAnswers (s : State) (k : Idx) (j : Half) (v : Byte) : (s.setIdxHalf k j v).hookAnswers = s.hookAnswers := by cases k <;> cases j <;> rfl
@[simp] theorem setIdxHalf_draws (s : State) (k : Idx) (j : Half) (v : Byte) : (s.setIdxHalf k j v).draws = s.draws := by cases k <;> cases j <;> rfl
@[simp] theorem setIdxHalf_params (s : State) (k : Idx) (j : Half) (v : Byte) : (s.setIdxHalf k j v).params = s.params := by cases k <;> cases j <;> rfl
@[simp] theorem setIdxHalf_lastLdAIR (s : State) (k : Idx) (j : Half) (v : Byte) : (s.setIdxHalf k j v).lastLdAIR = s.lastLdAIR := by cases k <;> cases j <;> rfl
@[simp] theorem setIdxHalf_kind (s : State) (k : Idx) (j : Half) (v : Byte) : (s.setIdxHalf k j v).kind = s.kind := by cases k <;> cases j <;> rfl

/-! Reading a register after writing one -/

theorem reg8_setReg8 (s : State) (k k' : Reg8) (v : Byte) :
    (s.setReg8 k v).reg8 k' = if k' = k then v else s.reg8 k' := by
  cases k <;> cases k' <;> rfl

@[simp] theorem reg8_setReg8_same (s : State) (k : Reg8) (v : Byte) : (s.setReg8 k v).reg8 k = v := by
  cases k <;> rfl

theorem idx_setIdx (s : State) (k k' : Idx) (v : Word) : (s.setIdx k v).idx k' = if k' = k then v else s.idx k' := by
  cases k <;> cases k' <;> rfl

@[simp] theorem idx_setIdx_same (s : State) (k : Idx) (v : Word) : (s.setIdx k v).idx k = v := by
  cases k <;> rfl

/-! Reading memory after an update that does not touch it -/

@[simp] theorem peek_setBc (s : State) (v : Word) (x : Word) : (s.setBc v).peek x = s.peek x := rfl
@[simp] theorem peek_setDe (s : State) (v : Word) (x : Word) : (s.setDe v).peek x = s.peek x := rfl
@[simp] theorem peek_setHl (s : State) (v : Word) (x : Word) : (s.setHl v).peek x = s.peek x := rfl
@[simp] theorem peek_setAf (s : State) (v : Word) (x : Word) : (s.setAf v).peek x = s.peek x := rfl
@[simp] theorem peek_setAfAlt (s : State) (v : Word) (x : Word) : (s.setAfAlt v).peek x = s.peek x := rfl
@[simp] theorem peek_setGeneralAlt (s : State) (v w u : Word) (x : Word) : (s.setGeneralAlt v w u).peek x = s.peek x := rfl
@[simp] theorem peek_setSp (s : State) (v : Word) (x : Word) : (s.setSp v).peek x = s.peek x := rfl
@[simp] theorem peek_setPc (s : State) (v : Word) (x : Word) : (s.setPc v).peek x = s.peek x := rfl
@[simp] theorem peek_setMemptr (s : State) (v : Word) (x : Word) : (s.setMemptr v).peek x = s.peek x := rfl
@[simp] theorem peek_writeF (s : State) (v : Byte) (x : Word) : (s.writeF v).peek x = s.peek x := rfl
@[simp] theorem peek_markQOnPopExAF (s : State) (x : Word) : (s.markQOnPopExAF).peek x = s.peek x := rfl
@[simp] theorem peek_incR (s : State) (x : Word) : (s.incR).peek x = s.peek x := rfl
@[simp] theorem peek_setI (s : State) (v : Byte) (x : Word) : (s.setI v).peek x = s.peek x := rfl
@[simp] theorem peek_setR (s : State) (v : Byte) (x : Word) : (s.setR v).peek x = s.peek x := rfl
@[simp] theorem peek_setIffs (s : State) (v w : Bool) (x : Word) : (s.setIffs v w).peek x = s.peek x := rfl
@[simp] theorem peek_setIm (s : State) (v : IntMode) (x : Word) : (s.setIm v).peek x = s.peek x := rfl
@[simp] theorem peek_setPendingEI (s : State) (v : Bool) (x : Word) : (s.setPendingEI v).peek x = s.peek x := rfl
@[simp] theorem peek_setHalted (s : State) (v : Bool) (x : Word) : (s.setHalted v).peek x = s.peek x := rfl
@[simp] theorem peek_setNmiPending (s : State) (v : Bool) (x : Word) : (s.setNmiPending v).peek x = s.peek x := rfl
@[simp] theorem peek_setLastQ (s : State) (v : Bool) (x : Word) : (s.setLastQ v).peek x = s.peek x := rfl
@[simp] theorem peek_setLastLdAIR (s : State) (v : Bool) (x : Word) : (s.setLastLdAIR v).peek x = s.peek x := rfl
@[simp] theorem peek_setPfx (s : State) (v : Option Idx) (x : Word) : (s.setPfx v).peek x = s.peek x := rfl
@[simp] theorem peek_setKind (s : State) (v : StepKind) (x : Word) : (s.setKind v).peek x = s.peek x := rfl
@[simp] theorem peek_emit (s : State) (v : BusEvent) (x : Word) : (s.emit v).peek x = s.peek x := rfl
@[simp] theorem peek_afterPortIn (s : State) (v : Word) (x : Word) : (s.afterPortIn v).peek x = s.peek x := rfl
@[simp] theorem peek_afterIntAck (s : State) (x : Word) : (s.afterIntAck).peek x = s.peek x := rfl
@[simp] theorem peek_afterHook (s : State) (w : Word) (v : Byte) (x : Word) : (s.afterHook w v).peek x = s.peek x := rfl
@[simp] theorem peek_clearForInstruction (s : State) (x : Word) : (s.clearForInstruction).peek x = s.peek x := rfl
@[simp] theorem peek_setReg8 (s : State) (k : Reg8) (v : Byte) (x : Word) : (s.setReg8 k v).peek x = s.peek x := by cases k <;> rfl
@[simp] theorem peek_setIdx (s : State) (k : Idx) (v : Word) (x : Word) : (s.setIdx k v).peek x = s.peek x := by cases k <;> rfl
@[simp] theorem peek_setIdxHalf (s : State) (k : Idx) (j : Half) (v : Byte) (x : Word) : (s.setIdxHalf k j v).peek x = s.peek x := by
  cases k <;> cases j <;> rfl

end Sys2Proof.Machine
end

