-- ==== Sys2Proof/Laws/Memory.lean ====
section
/-! SUPPORT. Memory and breakpoint set: reading after writing, and that every operation keeps the canonical form. -/

namespace Sys2Proof.Machine

@[simp] theorem Memory.read_nil (x : Nat) : Memory.read [] x = Config.unlistedByte := rfl

theorem Memory.read_cons (k : Nat) (w : Byte) (m : Memory) (x : Nat) :
    Memory.read ((k, w) :: m) x = if k = x then w else m.read x := rfl

/-- A canonical memory lists nothing below its bound. -/
theorem Memory.read_below {m : Memory} : ∀ {n x : Nat}, Memory.wfFrom n m = true → x < n → m.read x = Config.unlistedByte := by
  induction m with
  | nil => intros; rfl
  | cons e m ih =>
    obtain ⟨k, v⟩ := e
    intro n x h hx
    simp only [Memory.wfFrom, Bool.and_eq_true, decide_eq_true_eq] at h
    obtain ⟨⟨⟨hk, -⟩, -⟩, hm⟩ := h
    rw [Memory.read, if_neg (by omega)]
    exact ih hm (by omega)

/-- A lower bound can be lowered. -/
theorem Memory.wfFrom_mono {m : Memory} {n n' : Nat} (h : Memory.wfFrom n m = true) (hn : n' ≤ n) :
    Memory.wfFrom n' m = true := by
  cases m with
  | nil => rfl
  | cons e m =>
    obtain ⟨k, v⟩ := e
    simp only [Memory.wfFrom, Bool.and_eq_true, decide_eq_true_eq] at h ⊢
    exact ⟨⟨⟨by omega, h.1.1.2⟩, h.1.2⟩, h.2⟩

/-- Reading after writing, in a canonical memory. -/
theorem Memory.read_write_from {m : Memory} (x y : Nat) (v : Byte) :
    ∀ {n : Nat}, Memory.wfFrom n m = true → (m.write x v).read y = if y = x then v else m.read y := by
  induction m with
  | nil =>
    intro n h
    by_cases hv : v = Config.unlistedByte
    · simp [Memory.write, hv]
    · by_cases hy : y = x
      · simp [Memory.write, Memory.read, hv, hy]
      · simp [Memory.write, Memory.read, hv, hy, Ne.symm hy]
  | cons e m ih =>
    obtain ⟨k, w⟩ := e
    intro n h
    simp only [Memory.wfFrom, Bool.and_eq_true, decide_eq_true_eq] at h
    obtain ⟨⟨⟨hk, hk'⟩, hw⟩, hm⟩ := h
    by_cases h1 : x < k
    · by_cases hv : v = Config.unlistedByte
      · rw [Memory.write, if_pos h1, if_pos hv]
        by_cases hy : y = x
        · rw [if_pos hy, Memory.read_cons, if_neg (by omega), hv]
          exact Memory.read_below hm (by omega)
        · rw [if_neg hy]
      · rw [Memory.write, if_pos h1, if_neg hv, Memory.read_cons]
        simp [eq_comm]
    · by_cases h2 : x = k
      · subst h2
        by_cases hv : v = Config.unlistedByte
        · rw [Memory.write, if_neg h1, if_pos rfl, if_pos hv]
          by_cases hy : y = x
          · rw [if_pos hy, hv]
            exact Memory.read_below hm (by omega)
          · rw [if_neg hy, Memory.read_cons, if_neg (Ne.symm hy)]
        · rw [Memory.write, if_neg h1, if_pos rfl, if_neg hv, Memory.read_cons, Memory.read_cons]
          by_cases hy : y = x
          · simp [hy]
          · simp [hy, Ne.symm hy]
      · rw [Memory.write, if_neg h1, if_neg h2, Memory.read_cons, Memory.read_cons, ih hm]
        by_cases hy : k = y
        · rw [if_pos hy, if_pos hy, if_neg (by omega)]
        · rw [if_neg hy, if_neg hy]

theorem Memory.read_write {m : Memory} (h : m.wf = true) (x y : Nat) (v : Byte) :
    (m.write x v).read y = if y = x then v else m.read y := Memory.read_write_from x y v h

/-- A write keeps the canonical form. -/
theorem Memory.wfFrom_write {m : Memory} (x : Nat) (v : Byte) (hx : x < 65536) :
    ∀ {n : Nat}, Memory.wfFrom n m = true → n ≤ x → Memory.wfFrom n (m.write x v) = true := by
  induction m with
  | nil =>
    intro n _ hn
    by_cases hv : v = Config.unlistedByte <;> simp [Memory.write, Memory.wfFrom, hv, hn, hx]
  | cons e m ih =>
    obtain ⟨k, w⟩ := e
    intro n h hn
    have h' := h
    simp only [Memory.wfFrom, Bool.and_eq_true, decide_eq_true_eq] at h
    obtain ⟨⟨⟨hk, hk'⟩, hw⟩, hm⟩ := h
    unfold Memory.write
    split_ifs with h1 hv h2 hv
    · exact h'
    · simp only [Memory.wfFrom, Bool.and_eq_true, decide_eq_true_eq, bne_iff_ne]
      exact ⟨⟨⟨hn, hx⟩, hv⟩, ⟨⟨⟨by omega, hk'⟩, by simpa using hw⟩, hm⟩⟩
    · exact Memory.wfFrom_mono hm (by omega)
    · simp only [Memory.wfFrom, Bool.and_eq_true, decide_eq_true_eq, bne_iff_ne]
      exact ⟨⟨⟨hn, hx⟩, hv⟩, by rw [h2]; exact hm⟩
    · simp only [Memory.wfFrom, Bool.and_eq_true, decide_eq_true_eq]
      exact ⟨⟨⟨hk, hk'⟩, hw⟩, ih hm (by omega)⟩

theorem Memory.wf_write {m : Memory} (h : m.wf = true) (x : Word) (v : Byte) : (m.write x.toNat v).wf = true :=
  Memory.wfFrom_write _ _ x.isLt h (Nat.zero_le _)

theorem Memory.wf_reset : State.reset.mem.wf = true := rfl

/-- Reading a byte after `poke`, in a canonical memory. -/
theorem peek_poke {s : State} (h : s.mem.wf = true) (x y : Word) (v : Byte) :
    (s.poke x v).peek y = if y = x then v else s.peek y := by
  unfold State.peek State.poke
  rw [Memory.read_write h]
  simp [BitVec.toNat_inj]

/-- Reading another byte after a write needs no canonical form. -/
theorem Memory.read_write_ne {m : Memory} {x y : Nat} (v : Byte) (h : y ≠ x) : (m.write x v).read y = m.read y := by
  induction m with
  | nil =>
    by_cases hv : v = Config.unlistedByte <;> simp [Memory.write, Memory.read, hv, Ne.symm h]
  | cons e m ih =>
    obtain ⟨k, w⟩ := e
    unfold Memory.write
    split_ifs with h1 hv h2 hv <;> simp only [Memory.read]
    · rw [if_neg (Ne.symm h)]
    · rw [if_neg (by omega)]
    · rw [if_neg (Ne.symm h), if_neg (by omega)]
    · rw [ih]

theorem peek_poke_ne (s : State) {x y : Word} (v : Byte) (h : y ≠ x) : (s.poke x v).peek y = s.peek y := by
  unfold State.peek State.poke
  exact Memory.read_write_ne v (fun he => h (BitVec.toNat_inj.mp he))

theorem peek_store_ne (s : State) {x y : Word} (v : Byte) (h : y ≠ x) : (s.store x v).peek y = s.peek y := by
  unfold State.store
  rw [peek_poke_ne _ _ h, peek_emit]

/-- Enabling an address keeps the breakpoint set canonical. -/
theorem risingFrom_enableAddr {ks : List Nat} (x : Nat) (hx : x < 65536) :
    ∀ {n : Nat}, risingFrom n ks = true → n ≤ x → risingFrom n (enableAddr x ks) = true := by
  induction ks with
  | nil => intro n _ hn; simp [enableAddr, risingFrom, hn, hx]
  | cons k ks ih =>
    intro n h hn
    have h' := h
    simp only [risingFrom, Bool.and_eq_true, decide_eq_true_eq] at h
    obtain ⟨⟨hk, hk'⟩, hm⟩ := h
    unfold enableAddr
    split_ifs with h1 h2
    · simp only [risingFrom, Bool.and_eq_true, decide_eq_true_eq]
      exact ⟨⟨hn, hx⟩, ⟨⟨by omega, hk'⟩, hm⟩⟩
    · exact h'
    · simp only [risingFrom, Bool.and_eq_true, decide_eq_true_eq]
      exact ⟨⟨hk, hk'⟩, ih hm (by omega)⟩

theorem mem_enableAddr (x y : Nat) (ks : List Nat) : y ∈ enableAddr x ks ↔ y = x ∨ y ∈ ks := by
  induction ks with
  | nil => simp [enableAddr]
  | cons k ks ih =>
    unfold enableAddr
    split_ifs with h1 h2
    · simp
    · subst h2; simp
    · simp [ih]; tauto

theorem mem_disableAddr (x y : Nat) (ks : List Nat) : y ∈ disableAddr x ks ↔ y ∈ ks ∧ y ≠ x := by
  simp [disableAddr]

theorem risingFrom_mono {ks : List Nat} {n n' : Nat} (h : risingFrom n ks = true) (hn : n' ≤ n) : risingFrom n' ks = true := by
  cases ks with
  | nil => rfl
  | cons k ks =>
    simp only [risingFrom, Bool.and_eq_true, decide_eq_true_eq] at h ⊢
    exact ⟨⟨by omega, h.1.2⟩, h.2⟩

/-- Disabling an address keeps the breakpoint set canonical. -/
theorem risingFrom_disableAddr {ks : List Nat} (x : Nat) :
    ∀ {n : Nat}, risingFrom n ks = true → risingFrom n (disableAddr x ks) = true := by
  induction ks with
  | nil => intro n h; exact h
  | cons k ks ih =>
    intro n h
    simp only [risingFrom, Bool.and_eq_true, decide_eq_true_eq] at h
    have ht := ih h.2
    simp only [disableAddr, List.filter_cons] at ht ⊢
    split
    · simpa only [risingFrom, Bool.and_eq_true, decide_eq_true_eq] using ⟨h.1, ht⟩
    · exact risingFrom_mono ht (by omega)

end Sys2Proof.Machine
end

