-- ==== Sys2Proof/Laws/Ops.lean ====
section
/-! SUPPORT. What each shared operation does, said once: an equation that gives its whole result. -/

namespace Sys2Proof.Machine

theorem sub_one_sub_one (w : Word) : w - 1#16 - 1#16 = w - 2#16 := by bv_omega

theorem add_one_add_one (w : Word) : w + 1#16 + 1#16 = w + 2#16 := by bv_omega

theorem sub_two_add_one (w : Word) : w - 2#16 + 1#16 = w - 1#16 := by bv_omega

theorem sub_two_add_two (w : Word) : w - 2#16 + 2#16 = w := by bv_omega

theorem sub_one_ne_sub_two (w : Word) : w - 1#16 ≠ w - 2#16 := by bv_omega

/-- Counting R once, as a number (10_state.md R35). -/
theorem incR_refreshed (s : State) : s.incR = { s with r := refreshed s.r 1 } := by
  have h : ∀ v : Byte, (v &&& 0x80#8) ||| ((v + 1#8) &&& 0x7F#8) = refreshed v 1 := by decide +revert
  unfold State.incR
  rw [h]

/-- Two counts in a row. -/
theorem refreshed_refreshed (v : Byte) (n m : Nat) : refreshed (refreshed v n) m = refreshed v (n + m) := by
  apply BitVec.eq_of_toNat_eq
  have := v.isLt
  simp only [refreshed, opByte, BitVec.toNat_ofNat]
  omega

theorem refreshed_zero (v : Byte) : refreshed v 0 = v := by
  apply BitVec.eq_of_toNat_eq
  have := v.isLt
  simp only [refreshed, opByte, BitVec.toNat_ofNat]
  omega

theorem store_eq (s : State) (x : Word) (v : Byte) :
    s.store x v = { s with mem := s.mem.write x.toNat v, bus := .writeByte x v :: s.bus } := rfl

/-- Pushing a word, whole (20_memory.md R74). -/
theorem push16_eq (s : State) (v : Word) :
    s.push16 v = { (s.store (s.sp - 1#16) (hi v)).store (s.sp - 2#16) (lo v) with sp := s.sp - 2#16 } := by
  simp only [State.push16, State.store, State.setSp, State.emit, State.poke, sub_one_sub_one]

/-- Popping a word, whole (20_memory.md R74). -/
theorem popping_eq (s : State) (k : Word → State → Result) :
    s.popping k = k (join (s.peek (s.sp + 1#16)) (s.peek s.sp))
      { (s.emit (.readByte s.sp)).emit (.readByte (s.sp + 1#16)) with sp := s.sp + 2#16 } := by
  simp only [State.popping, State.loading, State.setSp, State.emit, State.peek, add_one_add_one]

/-- Reading a word, whole (20_memory.md R73). -/
theorem loading16_eq (s : State) (x : Word) (k : Word → State → Result) :
    s.loading16 x k = k (join (s.peek (x + 1#16)) (s.peek x)) ((s.emit (.readByte x)).emit (.readByte (x + 1#16))) := rfl

theorem call_eq (s : State) (t : Word) :
    s.call t = { (s.store (s.sp - 1#16) (hi s.pc)).store (s.sp - 2#16) (lo s.pc) with
      sp := s.sp - 2#16, pc := t, memptr := t } := by
  simp only [State.call, push16_eq, State.jump, State.setPc, State.setMemptr]

theorem returning_eq (s : State) :
    s.returning = .next { (s.emit (.readByte s.sp)).emit (.readByte (s.sp + 1#16)) with
      sp := s.sp + 2#16, pc := join (s.peek (s.sp + 1#16)) (s.peek s.sp),
      memptr := join (s.peek (s.sp + 1#16)) (s.peek s.sp) } := by
  simp only [State.returning, popping_eq, State.jump, State.setPc, State.setMemptr]

/-- Obtaining an operand, whole (42_alu8.md R280). -/
theorem sourcing_eq (s : State) (src : Src) (k : Byte → State → Result) :
    s.sourcing src k = k (src.value s) (src.after s) := by
  cases src <;> rfl

theorem after_a (s : State) (src : Src) : (src.after s).a = s.a := by cases src <;> rfl

theorem after_f (s : State) (src : Src) : (src.after s).f = s.f := by cases src <;> rfl

/-- An accumulator operation, whole (42_alu8.md R280). -/
theorem accumulate_eq (s : State) (op : AluOp) (src : Src) :
    s.accumulate op src = .next { src.after s with
      a := (op s.a (src.value s) s.f).1, f := (op s.a (src.value s) s.f).2, q := true } := by
  rw [State.accumulate, sourcing_eq, after_a, after_f]
  rfl

/-- Taking an interrupt at a fixed address, whole (60_exceptions.md R607 to R610). -/
theorem takeInterrupt_fixed_eq (s : State) (t : Word) :
    s.takeInterrupt (fixedVector t) = .next { (s.store (s.sp - 1#16) (hi s.pc)).store (s.sp - 2#16) (lo s.pc) with
      sp := s.sp - 2#16, pc := t, memptr := t, lastQ := false, lastLdAIR := false } := by
  simp only [State.takeInterrupt, fixedVector, push16_eq, State.jump, State.setPc, State.setMemptr, State.setLastQ,
    State.setLastLdAIR]

/-- Leaving the Halted state, whole. -/
theorem leaveHalt_eq (s : State) :
    s.leaveHalt = { s with halted := false, pc := if s.halted then s.pc + 1#16 else s.pc } := by
  unfold State.leaveHalt State.setHalted State.setPc
  obtain ⟨a, f, b, c, d, e, h, l, aAlt, fAlt, bAlt, cAlt, dAlt, eAlt, hAlt, lAlt, ix, iy, sp, pc, i, r, memptr, iff1,
    iff2, im, pendingEI, halted⟩ := s
  cases halted <;> rfl

/-- The quirk of D15, whole. -/
theorem clearPvOfLdAIR_eq (s : State) :
    s.clearPvOfLdAIR =
      { s with f := if s.params.ldairPvQuirk = true ∧ s.lastLdAIR = true then s.f &&& 0xFB#8 else s.f } := by
  unfold State.clearPvOfLdAIR
  simp only [Bool.and_eq_true]
  split <;> rfl

/-- NMI entry, whole (60_exceptions.md R607). -/
theorem serviceNmi_eq (s : State) :
    s.serviceNmi = .next { (s.store (s.sp - 1#16) (hi (if s.halted then s.pc + 1#16 else s.pc))).store (s.sp - 2#16)
        (lo (if s.halted then s.pc + 1#16 else s.pc)) with
      nmiPending := false, halted := false, r := refreshed s.r 1, iff1 := false, sp := s.sp - 2#16,
      pc := Config.nmiVector, memptr := Config.nmiVector, lastQ := false, lastLdAIR := false } := by
  simp only [State.serviceNmi, takeInterrupt_fixed_eq, leaveHalt_eq, incR_refreshed, State.setNmiPending, State.setIffs,
    store_eq]

/-- What every maskable-interrupt entry does before it turns to the mode, whole (60_exceptions.md R608). -/
theorem entering_eq (s : State) :
    (((s.clearPvOfLdAIR).leaveHalt).incR).setIffs false false = { s with
      f := if s.params.ldairPvQuirk = true ∧ s.lastLdAIR = true then s.f &&& 0xFB#8 else s.f,
      halted := false, pc := if s.halted then s.pc + 1#16 else s.pc, r := refreshed s.r 1, iff1 := false,
      iff2 := false } := by
  simp only [clearPvOfLdAIR_eq, leaveHalt_eq, incR_refreshed, State.setIffs]

/-! ### Fetches -/

theorem fetchOp_eq (s : State) :
    s.fetchOp = { s with bus := .fetchOpcode s.pc :: s.bus, pc := s.pc + 1#16, r := refreshed s.r 1 } := by
  simp only [State.fetchOp, incR_refreshed, State.setPc, State.emit]

theorem fetchByte_eq (s : State) : s.fetchByte = { s with bus := .readByte s.pc :: s.bus, pc := s.pc + 1#16 } := rfl

theorem add_one_add_ofNat (w : Word) (n : Nat) : w + 1#16 + BitVec.ofNat 16 n = w + BitVec.ofNat 16 (n + 1) := by
  apply BitVec.eq_of_toNat_eq
  simp only [BitVec.toNat_add, BitVec.toNat_ofNat]
  omega

/-- Operand reads move PC and record requests, none of which ends an instruction; nothing else changes. -/
theorem requestsFrom_succ (kind : Word → BusEvent) (a : Word) (n : Nat) :
    requestsFrom kind a (n + 1) = kind a :: requestsFrom kind (a + 1#16) n := by
  simp only [requestsFrom, List.range_succ_eq_map, List.map_cons, List.map_map, Function.comp_def, add_one_add_ofNat,
    Nat.succ_eq_add_one, BitVec.add_zero]

/-- What `n` operand reads do: PC passes them and they are recorded, the last one first. -/
theorem fetchBytes_eq (n : Nat) (s : State) :
    s.fetchBytes n =
      { s with bus := (requestsFrom .readByte s.pc n).reverse ++ s.bus, pc := s.pc + BitVec.ofNat 16 n } := by
  induction n generalizing s with
  | zero => simp [State.fetchBytes, requestsFrom]
  | succ n ih => simp [State.fetchBytes, ih, fetchByte_eq, add_one_add_ofNat, requestsFrom_succ]

/-- What `n` further M1 fetches do: as operand reads, and R counts them. -/
theorem fetchOps_eq (n : Nat) (s : State) :
    s.fetchOps n =
      { s with
        bus := (requestsFrom .fetchOpcode s.pc n).reverse ++ s.bus, pc := s.pc + BitVec.ofNat 16 n,
        r := refreshed s.r n } := by
  induction n generalizing s with
  | zero => simp [State.fetchOps, requestsFrom, refreshed_zero]
  | succ n ih =>
    simp [State.fetchOps, ih, fetchOp_eq, add_one_add_ofNat, requestsFrom_succ, refreshed_refreshed, Nat.add_comm]

/-- What the breakpoint hook answers where it is the identity (00_scope.md R8). -/
theorem hookAnswer_identity {s : State} (h : s.params.breakpointHook = .identity) (x : Word) (op : Byte) :
    s.hookAnswer x op = op := by simp only [State.hookAnswer, h]

/-- Where it is an oracle: the next byte ready, or the free value (60_exceptions.md R620). -/
theorem hookAnswer_oracle {s : State} (h : s.params.breakpointHook = .oracle) (x : Word) (op : Byte) :
    s.hookAnswer x op = s.hookAnswers.headD (Config.hookByte s.draws x op) := by simp only [State.hookAnswer, h]

end Sys2Proof.Machine
end

