-- ==== Sys2Proof/Laws/Block.lean ====
section
/-! SUPPORT. What one iteration of each block operation hands to its continuation, and when a repetition is taken. -/

namespace Sys2Proof.Machine

/-- One transfer, whole (46_block.md R440, R441). -/
theorem blockLd_eq (s : State) (down : Bool) (k : State → Result) :
    s.blockLd down k = k { (((((s.emit (.readByte s.hl)).store s.de (s.peek s.hl)).setHl (advance down s.hl)).setDe
        (advance down s.de)).setBc (s.bc - 1#16)) with
      f := blockLdF s.a (s.peek s.hl) s.f (s.bc - 1#16), q := true } := rfl

/-- One compare, whole (46_block.md R444, R445). -/
theorem blockCp_eq (s : State) (down : Bool) (k : State → Result) :
    s.blockCp down k = k { (((s.emit (.readByte s.hl)).setHl (advance down s.hl)).setBc (s.bc - 1#16)) with
      f := blockCpF s.a (s.peek s.hl) s.f (s.bc - 1#16), q := true, memptr := advance down s.memptr } := rfl

/-- One input, whole (46_block.md R448, R449). -/
theorem blockIn_eq (s : State) (down : Bool) (k : State → Result) :
    s.blockIn down k = k { (((s.afterPortIn s.bc).store s.hl (s.portAnswer s.bc)).setHl (advance down s.hl)) with
      b := s.b - 1#8, memptr := advance down s.bc, q := true,
      f := blockIoF (s.portAnswer s.bc) (s.b - 1#8) (if down then s.c - 1#8 else s.c + 1#8) } := rfl

/-- One output, whole (46_block.md R452, R453). -/
theorem blockOut_eq (s : State) (down : Bool) (k : State → Result) :
    s.blockOut down k = k { (((s.emit (.readByte s.hl)).emit (.portOut (join (s.b - 1#8) s.c) (s.peek s.hl))).setHl
        (advance down s.hl)) with
      b := s.b - 1#8, memptr := advance down (join (s.b - 1#8) s.c), q := true,
      f := blockIoF (s.peek s.hl) (s.b - 1#8) (lo (advance down s.hl)) } := rfl

/-- No repetition: the iteration is the last (46_block.md R456). -/
theorem repeatIf_done {again : State → Bool} {s : State} (h : again s = false) (m : Bool) :
    State.repeatIf again m s = .next s := by
  simp [State.repeatIf, h]

/-- A repetition under `as_single`: PC goes back to the ED byte (46_block.md R456). -/
theorem repeatIf_again {again : State → Bool} {s : State} (h : again s = true) (hp : s.params.blockRepeatXY = .asSingle)
    (m : Bool) :
    State.repeatIf again m s =
      .next { s with pc := s.pc - 2#16, memptr := if m then s.pc - 1#16 else s.memptr } := by
  cases m <;> simp [State.repeatIf, h, State.repeating, hp] <;> rfl

/-- A repetition under `pc_high` is refused (46_block.md R456, D14). -/
theorem repeatIf_refused {again : State → Bool} {s : State} (h : again s = true)
    (hp : s.params.blockRepeatXY = .pcHigh) (m : Bool) :
    State.repeatIf again m s = .refused .blockRepeatPcHigh := by
  simp [State.repeatIf, h, State.repeating, hp]

end Sys2Proof.Machine
end

