-- ==== Sys2Proof/Laws/Decode.lean ====
section
/-! SUPPORT. Reading back the fields of an opcode; what the page decoders give; `resolve`. -/

namespace Sys2Proof

/-- A statement about every byte, checked number by number. -/
theorem byte_cases {P : Byte → Prop} (h : ∀ n, n < 256 → P (BitVec.ofNat 8 n)) (b : Byte) : P b := by
  have := h b.toNat b.isLt
  simpa using this

/-- The eight values of a 3-bit field. -/
theorem field3_cases (b : BitVec 3) :
    b = 0#3 ∨ b = 1#3 ∨ b = 2#3 ∨ b = 3#3 ∨ b = 4#3 ∨ b = 5#3 ∨ b = 6#3 ∨ b = 7#3 := by
  decide +revert

/-! ### Fields of an opcode -/

theorem fieldX_opXYZ (x : BitVec 2) (y z : BitVec 3) : fieldX (opXYZ x y z) = x.toNat := by decide +revert
theorem fieldY_opXYZ (x : BitVec 2) (y z : BitVec 3) : fieldY (opXYZ x y z) = y.toNat := by decide +revert
theorem fieldZ_opXYZ (x : BitVec 2) (y z : BitVec 3) : fieldZ (opXYZ x y z) = z.toNat := by decide +revert
theorem fieldX_opXPQZ (x p : BitVec 2) (q : BitVec 1) (z : BitVec 3) : fieldX (opXPQZ x p q z) = x.toNat := by
  decide +revert
theorem fieldP_opXPQZ (x p : BitVec 2) (q : BitVec 1) (z : BitVec 3) : fieldP (opXPQZ x p q z) = p.toNat := by
  decide +revert
theorem fieldQ_opXPQZ (x p : BitVec 2) (q : BitVec 1) (z : BitVec 3) : fieldQ (opXPQZ x p q z) = (q == 1#1) := by
  decide +revert
theorem fieldZ_opXPQZ (x p : BitVec 2) (q : BitVec 1) (z : BitVec 3) : fieldZ (opXPQZ x p q z) = z.toNat := by
  decide +revert

theorem Reg8.ofField_field (r : Reg8) : Reg8.ofField r.field.toNat = some r := by cases r <;> rfl
theorem RegX.ofField_field (r : RegX) : RegX.ofField r.field.toNat = some r := by cases r <;> rfl
theorem Rp.ofField_field (p : Rp) : Rp.ofField p.field.toNat = p := by cases p <;> rfl
theorem Rp2.ofField_field (p : Rp2) : Rp2.ofField p.field.toNat = p := by cases p <;> rfl
theorem RpX.ofField_field (p : RpX) : RpX.ofField p.field.toNat = p := by cases p <;> rfl
theorem Cond.ofField_field (cc : Cond) : Cond.ofField cc.field.toNat = cc := by cases cc <;> rfl
theorem Reg8.ofField_copyField (r : Option Reg8) : Reg8.ofField (copyField r).toNat = r := by
  cases r with
  | none => rfl
  | some r => exact Reg8.ofField_field r
theorem bits3_toNat (b : BitVec 3) : bits3 b.toNat = b := by decide +revert
theorem Idx.ofByte_byte (x : Idx) : Idx.ofByte x.byte = x := by cases x <;> rfl

/-! ### What the page decoders give -/

theorem decodeCb_coreBody (op : Byte) : (decodeCb op).coreBody = [0xCB#8, op] := by
  revert op
  decide

theorem decodeCb_resolve (op : Byte) : (decodeCb op).resolve = decodeCb op := by
  revert op
  decide

theorem decodeEd_coreBody (op b1 b2 : Byte) :
    (decodeEd op b1 b2).coreBody = [0xED#8, op] ∨ (decodeEd op b1 b2).coreBody = [0xED#8, op, b1, b2] := by
  revert op
  apply byte_cases
  intro n hn
  interval_cases n <;> first
    | exact .inl rfl
    | exact .inr (by simp [decodeEd, decodeEd1, fieldX, fieldZ, fieldQ, fieldP, Rp.ofField, Instr.coreBody]; rfl)

theorem decodeEd_resolve (op b1 b2 : Byte) : (decodeEd op b1 b2).resolve = decodeEd op b1 b2 := by
  revert op
  apply byte_cases
  intro n hn
  interval_cases n <;> rfl

theorem decodeIndexCb_coreBody (x : Idx) (d op : Byte) : (decodeIndexCb x d op).coreBody = [0xCB#8, d, op] := by
  revert op
  apply byte_cases
  intro n hn
  interval_cases n <;> rfl

theorem decodeIndexCb_resolve (x : Idx) (d op : Byte) : (decodeIndexCb x d op).resolve = decodeIndexCb x d op := by
  revert op
  apply byte_cases
  intro n hn
  interval_cases n <;> rfl

/-- The base page never gives a naming row. -/
theorem decodeBase_resolve (op b1 b2 b3 : Byte) : (decodeBase op b1 b2 b3).resolve = decodeBase op b1 b2 b3 := by
  by_cases h1 : op = 0xCB#8
  · subst h1; exact decodeCb_resolve b1
  by_cases h2 : op = 0xED#8
  · subst h2; exact decodeEd_resolve b1 b2 b3
  revert op
  apply byte_cases
  intro n hn h1 h2
  interval_cases n <;> first
    | exact absurd rfl h1
    | exact absurd rfl h2
    | rfl

/-- What the base page gives has a body that begins with the opcode. -/
theorem decodeBase_coreBody (op b1 b2 b3 : Byte) : (decodeBase op b1 b2 b3).coreBody.head? = some op := by
  by_cases h1 : op = 0xCB#8
  · subst h1
    rw [show decodeBase 0xCB#8 b1 b2 b3 = decodeCb b1 from rfl, decodeCb_coreBody]
    rfl
  by_cases h2 : op = 0xED#8
  · subst h2
    rw [show decodeBase 0xED#8 b1 b2 b3 = decodeEd b1 b2 b3 from rfl]
    rcases decodeEd_coreBody b1 b2 b3 with h | h <;> rw [h] <;> rfl
  revert op
  apply byte_cases
  intro n hn h1 h2
  interval_cases n <;> first
    | exact absurd rfl h1
    | exact absurd rfl h2
    | rfl

/-- An instruction that is its own `resolve` is no naming row: it has a body of its own. -/
theorem coreBody_of_resolve {i : Instr} (h : i.resolve = i) : i.coreBody ≠ [] := by
  intro hn
  cases i with
  | cbPrefix op => rw [← h, show (Instr.cbPrefix op).resolve = decodeCb op from rfl, decodeCb_coreBody] at hn; cases hn
  | edPrefix op b1 b2 =>
    rw [← h, show (Instr.edPrefix op b1 b2).resolve = decodeEd op b1 b2 from rfl] at hn
    rcases decodeEd_coreBody op b1 b2 with e | e <;> rw [e] at hn <;> cases hn
  | ddCb x d op =>
    rw [← h, show (Instr.ddCb x d op).resolve = decodeIndexCb x d op from rfl, decodeIndexCb_coreBody] at hn; cases hn
  | edAfterIndex x op b1 b2 =>
    rw [← h, show (Instr.edAfterIndex x op b1 b2).resolve = decodeEd op b1 b2 from rfl] at hn
    rcases decodeEd_coreBody op b1 b2 with e | e <;> rw [e] at hn <;> cases hn
  | prefixIgnored x op b1 b2 =>
    have e := decodeBase_coreBody op b1 b2 0x00#8
    rw [← h, show (Instr.prefixIgnored x op b1 b2).resolve = decodeBase op b1 b2 0x00#8 from rfl] at hn
    rw [hn] at e; cases e
  | _ => cases hn

/-- No page decoder gives a naming row: resolving twice is resolving once. -/
theorem resolve_namesRow (i : Instr) : i.resolve.resolve = i.resolve := by
  cases i with
  | cbPrefix op => exact decodeCb_resolve op
  | edPrefix op b1 b2 => exact decodeEd_resolve op b1 b2
  | ddCb x d op => exact decodeIndexCb_resolve x d op
  | edAfterIndex x op b1 b2 => exact decodeEd_resolve op b1 b2
  | prefixIgnored x op b1 b2 => exact decodeBase_resolve op b1 b2 0x00#8
  | _ => rfl

end Sys2Proof
end

