-- ==== Sys2Proof/Laws/Dispatch.lean ====
section
/-! SUPPORT. The naming rows execute the instruction they name. -/

namespace Sys2Proof.Machine

/-- `execNamed` is `exec` on every instruction that is no naming row. -/
theorem execNamed_eq {i : Instr} (h : i.resolve = i) (s : State) : execNamed i s = exec i s := by
  cases i with
  | cbPrefix op => exact absurd rfl (coreBody_of_resolve h)
  | edPrefix op b1 b2 => exact absurd rfl (coreBody_of_resolve h)
  | ddCb x d op => exact absurd rfl (coreBody_of_resolve h)
  | edAfterIndex x op b1 b2 => exact absurd rfl (coreBody_of_resolve h)
  | prefixIgnored x op b1 b2 => exact absurd rfl (coreBody_of_resolve h)
  | _ => rfl

/-- Every instruction executes as its `resolve` does (log entry 10). -/
theorem exec_resolve (i : Instr) (s : State) : exec i s = exec i.resolve s := by
  cases i with
  | cbPrefix op => exact execNamed_eq (resolve_namesRow (.cbPrefix op)) s
  | edPrefix op b1 b2 => exact execNamed_eq (resolve_namesRow (.edPrefix op b1 b2)) s
  | ddCb x d op => exact execNamed_eq (resolve_namesRow (.ddCb x d op)) s
  | edAfterIndex x op b1 b2 => exact execNamed_eq (resolve_namesRow (.edAfterIndex x op b1 b2)) s
  | prefixIgnored x op b1 b2 => exact execNamed_eq (resolve_namesRow (.prefixIgnored x op b1 b2)) s
  | _ => rfl

end Sys2Proof.Machine
end

