-- ==== Sys2Proof/Laws/PerInstr.lean ====
section
/-! SUPPORT. A fact about every instruction as syntax, one lemma per constructor: an instruction has one to four bytes of its
own, and its M1 fetches are among them. -/

namespace Sys2Proof.Laws.BodyLength

/-- One to four bytes in the instruction's own step, one or two of them M1 fetches (30_encoding.md R118, R119). -/
def Statement (i : Instr) : Prop := 1 ≤ i.m1Fetches ∧ i.m1Fetches ≤ i.body.length ∧ i.body.length ≤ 4

/-- The CB page holds CB instructions. -/
theorem decodeCb_layer (op : Byte) : (decodeCb op).layer = .cb := by
  revert op
  decide

/-- The ED page holds ED instructions. -/
theorem decodeEd_layer (op b1 b2 : Byte) : (decodeEd op b1 b2).layer = .ed := by
  revert op
  apply byte_cases
  intro n hn
  interval_cases n <;> rfl

/-- The DD CB page holds DD CB instructions. -/
theorem decodeIndexCb_layer (x : Idx) (d op : Byte) : (decodeIndexCb x d op).layer = .indexCb := by
  revert op
  apply byte_cases
  intro n hn
  interval_cases n <;> rfl

/-- The three comparisons, as one evaluation. -/
theorem of_counts {i : Instr}
    (h : (Nat.ble 1 i.m1Fetches && Nat.ble i.m1Fetches i.body.length && Nat.ble i.body.length 4) = true) : Statement i := by
  simp only [Bool.and_eq_true, Nat.ble_eq] at h
  exact ⟨h.1.1, h.1.2, h.2⟩

/-- What the CB page gives. -/
theorem of_cb {i : Instr} {op : Byte} (h : i.resolve = decodeCb op) : Statement i := by
  simp [Statement, Instr.m1Fetches, Instr.body, h, decodeCb_layer, decodeCb_coreBody]

/-- What the ED page gives. -/
theorem of_ed {i : Instr} {op b1 b2 : Byte} (h : i.resolve = decodeEd op b1 b2) : Statement i := by
  rcases decodeEd_coreBody op b1 b2 with e | e <;> simp [Statement, Instr.m1Fetches, Instr.body, h, decodeEd_layer, e]

/-- What the DD CB page gives. -/
theorem of_indexCb {i : Instr} {x : Idx} {d op : Byte} (h : i.resolve = decodeIndexCb x d op) : Statement i := by
  simp [Statement, Instr.m1Fetches, Instr.body, h, decodeIndexCb_layer, decodeIndexCb_coreBody]

theorem nop : Statement .nop := of_counts rfl
theorem exAfAf : Statement .exAfAf := of_counts rfl
theorem djnz (e : Byte) : Statement (.djnz e) := of_counts rfl
theorem jr (e : Byte) : Statement (.jr e) := of_counts rfl
theorem jrCc (cc : Cond) (e : Byte) : Statement (.jrCc cc e) := of_counts rfl
theorem ldDdNn (p : Rp) (nn : Word) : Statement (.ldDdNn p nn) := of_counts rfl
theorem addHlSs (p : Rp) : Statement (.addHlSs p) := of_counts rfl
theorem ldPairA (p : BcDe) : Statement (.ldPairA p) := of_counts rfl
theorem ldAPair (p : BcDe) : Statement (.ldAPair p) := of_counts rfl
theorem ldNnHl (nn : Word) : Statement (.ldNnHl nn) := of_counts rfl
theorem ldHlNn (nn : Word) : Statement (.ldHlNn nn) := of_counts rfl
theorem ldNnA (nn : Word) : Statement (.ldNnA nn) := of_counts rfl
theorem ldANn (nn : Word) : Statement (.ldANn nn) := of_counts rfl
theorem incSs (p : Rp) : Statement (.incSs p) := of_counts rfl
theorem decSs (p : Rp) : Statement (.decSs p) := of_counts rfl
theorem incR (r : Reg8) : Statement (.incR r) := of_counts rfl
theorem incM : Statement .incM := of_counts rfl
theorem decR (r : Reg8) : Statement (.decR r) := of_counts rfl
theorem decM : Statement .decM := of_counts rfl
theorem ldRN (r : Reg8) (n : Byte) : Statement (.ldRN r n) := of_counts rfl
theorem ldMN (n : Byte) : Statement (.ldMN n) := of_counts rfl
theorem rlca : Statement .rlca := of_counts rfl
theorem rrca : Statement .rrca := of_counts rfl
theorem rla : Statement .rla := of_counts rfl
theorem rra : Statement .rra := of_counts rfl
theorem daa : Statement .daa := of_counts rfl
theorem cpl : Statement .cpl := of_counts rfl
theorem scf : Statement .scf := of_counts rfl
theorem ccf : Statement .ccf := of_counts rfl
theorem ldRR (r : Reg8) (r' : Reg8) : Statement (.ldRR r r') := of_counts rfl
theorem ldRM (r : Reg8) : Statement (.ldRM r) := of_counts rfl
theorem ldMR (r : Reg8) : Statement (.ldMR r) := of_counts rfl
theorem halt : Statement .halt := of_counts rfl
theorem addAR (r : Reg8) : Statement (.addAR r) := of_counts rfl
theorem addAM : Statement .addAM := of_counts rfl
theorem addAN (n : Byte) : Statement (.addAN n) := of_counts rfl
theorem adcAR (r : Reg8) : Statement (.adcAR r) := of_counts rfl
theorem adcAM : Statement .adcAM := of_counts rfl
theorem adcAN (n : Byte) : Statement (.adcAN n) := of_counts rfl
theorem subR (r : Reg8) : Statement (.subR r) := of_counts rfl
theorem subM : Statement .subM := of_counts rfl
theorem subN (n : Byte) : Statement (.subN n) := of_counts rfl
theorem sbcAR (r : Reg8) : Statement (.sbcAR r) := of_counts rfl
theorem sbcAM : Statement .sbcAM := of_counts rfl
theorem sbcAN (n : Byte) : Statement (.sbcAN n) := of_counts rfl
theorem andR (r : Reg8) : Statement (.andR r) := of_counts rfl
theorem andM : Statement .andM := of_counts rfl
theorem andN (n : Byte) : Statement (.andN n) := of_counts rfl
theorem xorR (r : Reg8) : Statement (.xorR r) := of_counts rfl
theorem xorM : Statement .xorM := of_counts rfl
theorem xorN (n : Byte) : Statement (.xorN n) := of_counts rfl
theorem orR (r : Reg8) : Statement (.orR r) := of_counts rfl
theorem orM : Statement .orM := of_counts rfl
theorem orN (n : Byte) : Statement (.orN n) := of_counts rfl
theorem cpR (r : Reg8) : Statement (.cpR r) := of_counts rfl
theorem cpM : Statement .cpM := of_counts rfl
theorem cpN (n : Byte) : Statement (.cpN n) := of_counts rfl
theorem retCc (cc : Cond) : Statement (.retCc cc) := of_counts rfl
theorem popQq (p : Rp2) : Statement (.popQq p) := of_counts rfl
theorem ret : Statement .ret := of_counts rfl
theorem exx : Statement .exx := of_counts rfl
theorem jpHl : Statement .jpHl := of_counts rfl
theorem ldSpHl : Statement .ldSpHl := of_counts rfl
theorem jpCcNn (cc : Cond) (nn : Word) : Statement (.jpCcNn cc nn) := of_counts rfl
theorem jpNn (nn : Word) : Statement (.jpNn nn) := of_counts rfl
theorem cbPrefix (op : Byte) : Statement (.cbPrefix op) := of_cb rfl
theorem outNA (n : Byte) : Statement (.outNA n) := of_counts rfl
theorem inAN (n : Byte) : Statement (.inAN n) := of_counts rfl
theorem exSpHl : Statement .exSpHl := of_counts rfl
theorem exDeHl : Statement .exDeHl := of_counts rfl
theorem di : Statement .di := of_counts rfl
theorem ei : Statement .ei := of_counts rfl
theorem callCcNn (cc : Cond) (nn : Word) : Statement (.callCcNn cc nn) := of_counts rfl
theorem pushQq (p : Rp2) : Statement (.pushQq p) := of_counts rfl
theorem callNn (nn : Word) : Statement (.callNn nn) := of_counts rfl
theorem ddFdPrefix (x : Idx) : Statement (.ddFdPrefix x) := of_counts rfl
theorem edPrefix (op : Byte) (b1 : Byte) (b2 : Byte) : Statement (.edPrefix op b1 b2) := of_ed rfl
theorem rst (y : BitVec 3) : Statement (.rst y) := of_counts rfl
theorem rlcR (r : Reg8) : Statement (.rlcR r) := of_counts rfl
theorem rlcM : Statement .rlcM := of_counts rfl
theorem rrcR (r : Reg8) : Statement (.rrcR r) := of_counts rfl
theorem rrcM : Statement .rrcM := of_counts rfl
theorem rlR (r : Reg8) : Statement (.rlR r) := of_counts rfl
theorem rlM : Statement .rlM := of_counts rfl
theorem rrR (r : Reg8) : Statement (.rrR r) := of_counts rfl
theorem rrM : Statement .rrM := of_counts rfl
theorem slaR (r : Reg8) : Statement (.slaR r) := of_counts rfl
theorem slaM : Statement .slaM := of_counts rfl
theorem sraR (r : Reg8) : Statement (.sraR r) := of_counts rfl
theorem sraM : Statement .sraM := of_counts rfl
theorem sllR (r : Reg8) : Statement (.sllR r) := of_counts rfl
theorem sllM : Statement .sllM := of_counts rfl
theorem srlR (r : Reg8) : Statement (.srlR r) := of_counts rfl
theorem srlM : Statement .srlM := of_counts rfl
theorem bitR (b : BitVec 3) (r : Reg8) : Statement (.bitR b r) := of_counts rfl
theorem bitM (b : BitVec 3) : Statement (.bitM b) := of_counts rfl
theorem resR (b : BitVec 3) (r : Reg8) : Statement (.resR b r) := of_counts rfl
theorem resM (b : BitVec 3) : Statement (.resM b) := of_counts rfl
theorem setR (b : BitVec 3) (r : Reg8) : Statement (.setR b r) := of_counts rfl
theorem setM (b : BitVec 3) : Statement (.setM b) := of_counts rfl
theorem inRC (r : Reg8) : Statement (.inRC r) := of_counts rfl
theorem inC : Statement .inC := of_counts rfl
theorem outCR (r : Reg8) : Statement (.outCR r) := of_counts rfl
theorem outC0 : Statement .outC0 := of_counts rfl
theorem sbcHlSs (p : Rp) : Statement (.sbcHlSs p) := of_counts rfl
theorem adcHlSs (p : Rp) : Statement (.adcHlSs p) := of_counts rfl
theorem ldNnDd (p : Rp) (nn : Word) : Statement (.ldNnDd p nn) := of_counts rfl
theorem ldDdMem (p : Rp) (nn : Word) : Statement (.ldDdMem p nn) := of_counts rfl
theorem neg (y : BitVec 3) : Statement (.neg y) := of_counts rfl
theorem reti : Statement .reti := of_counts rfl
theorem retn (y : BitVec 3) : Statement (.retn y) := of_counts rfl
theorem im0 (y5 : Bool) (y3 : Bool) : Statement (.im0 y5 y3) := of_counts rfl
theorem im1 (y5 : Bool) : Statement (.im1 y5) := of_counts rfl
theorem im2 (y5 : Bool) : Statement (.im2 y5) := of_counts rfl
theorem ldIA : Statement .ldIA := of_counts rfl
theorem ldRA : Statement .ldRA := of_counts rfl
theorem ldAI : Statement .ldAI := of_counts rfl
theorem ldAR : Statement .ldAR := of_counts rfl
theorem rrd : Statement .rrd := of_counts rfl
theorem rld : Statement .rld := of_counts rfl
theorem nopEd7 (y3 : Bool) : Statement (.nopEd7 y3) := of_counts rfl
theorem ldi : Statement .ldi := of_counts rfl
theorem cpi : Statement .cpi := of_counts rfl
theorem ini : Statement .ini := of_counts rfl
theorem outi : Statement .outi := of_counts rfl
theorem ldd : Statement .ldd := of_counts rfl
theorem cpd : Statement .cpd := of_counts rfl
theorem ind : Statement .ind := of_counts rfl
theorem outd : Statement .outd := of_counts rfl
theorem ldir : Statement .ldir := of_counts rfl
theorem cpir : Statement .cpir := of_counts rfl
theorem inir : Statement .inir := of_counts rfl
theorem otir : Statement .otir := of_counts rfl
theorem lddr : Statement .lddr := of_counts rfl
theorem cpdr : Statement .cpdr := of_counts rfl
theorem indr : Statement .indr := of_counts rfl
theorem otdr : Statement .otdr := of_counts rfl
theorem nopEd0 (x : BitVec 6) : Statement (.nopEd0 x) := of_counts rfl
theorem nopEd2 (y : BitVec 3) (z : BitVec 3) : Statement (.nopEd2 y z) := of_counts rfl
theorem nopEd3 (x : BitVec 6) : Statement (.nopEd3 x) := of_counts rfl
theorem addIxPp (x : Idx) (p : RpX) : Statement (.addIxPp x p) := of_counts rfl
theorem ldIxNn (x : Idx) (nn : Word) : Statement (.ldIxNn x nn) := of_counts rfl
theorem ldNnIx (x : Idx) (nn : Word) : Statement (.ldNnIx x nn) := of_counts rfl
theorem incIx (x : Idx) : Statement (.incIx x) := of_counts rfl
theorem incXh (x : Idx) (h : Half) : Statement (.incXh x h) := of_counts rfl
theorem decXh (x : Idx) (h : Half) : Statement (.decXh x h) := of_counts rfl
theorem ldXhN (x : Idx) (h : Half) (n : Byte) : Statement (.ldXhN x h n) := of_counts rfl
theorem ldIxMem (x : Idx) (nn : Word) : Statement (.ldIxMem x nn) := of_counts rfl
theorem decIx (x : Idx) : Statement (.decIx x) := of_counts rfl
theorem incXd (x : Idx) (d : Byte) : Statement (.incXd x d) := of_counts rfl
theorem decXd (x : Idx) (d : Byte) : Statement (.decXd x d) := of_counts rfl
theorem ldXdN (x : Idx) (d : Byte) (n : Byte) : Statement (.ldXdN x d n) := of_counts rfl
theorem ldRXd (x : Idx) (r : Reg8) (d : Byte) : Statement (.ldRXd x r d) := of_counts rfl
theorem ldXdR (x : Idx) (r : Reg8) (d : Byte) : Statement (.ldXdR x r d) := of_counts rfl
theorem ldRRX (x : Idx) (r : RegX) (r' : RegX) : Statement (.ldRRX x r r') := of_counts rfl
theorem addAXh (x : Idx) (h : Half) : Statement (.addAXh x h) := of_counts rfl
theorem addAXd (x : Idx) (d : Byte) : Statement (.addAXd x d) := of_counts rfl
theorem adcAXh (x : Idx) (h : Half) : Statement (.adcAXh x h) := of_counts rfl
theorem adcAXd (x : Idx) (d : Byte) : Statement (.adcAXd x d) := of_counts rfl
theorem subXh (x : Idx) (h : Half) : Statement (.subXh x h) := of_counts rfl
theorem subXd (x : Idx) (d : Byte) : Statement (.subXd x d) := of_counts rfl
theorem sbcAXh (x : Idx) (h : Half) : Statement (.sbcAXh x h) := of_counts rfl
theorem sbcAXd (x : Idx) (d : Byte) : Statement (.sbcAXd x d) := of_counts rfl
theorem andXh (x : Idx) (h : Half) : Statement (.andXh x h) := of_counts rfl
theorem andXd (x : Idx) (d : Byte) : Statement (.andXd x d) := of_counts rfl
theorem xorXh (x : Idx) (h : Half) : Statement (.xorXh x h) := of_counts rfl
theorem xorXd (x : Idx) (d : Byte) : Statement (.xorXd x d) := of_counts rfl
theorem orXh (x : Idx) (h : Half) : Statement (.orXh x h) := of_counts rfl
theorem orXd (x : Idx) (d : Byte) : Statement (.orXd x d) := of_counts rfl
theorem cpXh (x : Idx) (h : Half) : Statement (.cpXh x h) := of_counts rfl
theorem cpXd (x : Idx) (d : Byte) : Statement (.cpXd x d) := of_counts rfl
theorem ddCb (x : Idx) (d : Byte) (op : Byte) : Statement (.ddCb x d op) := of_indexCb rfl
theorem popIx (x : Idx) : Statement (.popIx x) := of_counts rfl
theorem exSpIx (x : Idx) : Statement (.exSpIx x) := of_counts rfl
theorem pushIx (x : Idx) : Statement (.pushIx x) := of_counts rfl
theorem jpIx (x : Idx) : Statement (.jpIx x) := of_counts rfl
theorem ldSpIx (x : Idx) : Statement (.ldSpIx x) := of_counts rfl
theorem prefixAgain (x : Idx) : Statement (.prefixAgain x) := of_counts rfl
theorem edAfterIndex (x : Idx) (op : Byte) (b1 : Byte) (b2 : Byte) : Statement (.edAfterIndex x op b1 b2) := of_ed rfl
theorem prefixIgnored (x : Idx) (op : Byte) (b1 : Byte) (b2 : Byte) : Statement (.prefixIgnored x op b1 b2) := by
  have h : ∀ j : Instr, j.resolve = j → Statement j := by
    intro j hj
    cases j with
    | cbPrefix op => exact cbPrefix op
    | edPrefix op b1 b2 => exact edPrefix op b1 b2
    | ddCb x d op => exact ddCb x d op
    | edAfterIndex x op b1 b2 => exact edAfterIndex x op b1 b2
    | prefixIgnored x op b1 b2 => exact absurd rfl (coreBody_of_resolve hj)
    | _ => exact of_counts rfl
  have hr := h _ (resolve_namesRow (.prefixIgnored x op b1 b2))
  rwa [Statement, Instr.m1Fetches, Instr.body, resolve_namesRow] at hr
theorem rlcXd (x : Idx) (d : Byte) (r : Option Reg8) : Statement (.rlcXd x d r) := of_counts rfl
theorem rrcXd (x : Idx) (d : Byte) (r : Option Reg8) : Statement (.rrcXd x d r) := of_counts rfl
theorem rlXd (x : Idx) (d : Byte) (r : Option Reg8) : Statement (.rlXd x d r) := of_counts rfl
theorem rrXd (x : Idx) (d : Byte) (r : Option Reg8) : Statement (.rrXd x d r) := of_counts rfl
theorem slaXd (x : Idx) (d : Byte) (r : Option Reg8) : Statement (.slaXd x d r) := of_counts rfl
theorem sraXd (x : Idx) (d : Byte) (r : Option Reg8) : Statement (.sraXd x d r) := of_counts rfl
theorem sllXd (x : Idx) (d : Byte) (r : Option Reg8) : Statement (.sllXd x d r) := of_counts rfl
theorem srlXd (x : Idx) (d : Byte) (r : Option Reg8) : Statement (.srlXd x d r) := of_counts rfl
theorem bitXd (x : Idx) (b : BitVec 3) (d : Byte) (z : BitVec 3) : Statement (.bitXd x b d z) := of_counts rfl
theorem resXd (x : Idx) (b : BitVec 3) (d : Byte) (r : Option Reg8) : Statement (.resXd x b d r) := of_counts rfl
theorem setXd (x : Idx) (b : BitVec 3) (d : Byte) (r : Option Reg8) : Statement (.setXd x b d r) := of_counts rfl

end Sys2Proof.Laws.BodyLength
end

