-- ==== Sys2Proof/Tests/Slice0.lean ====
section
/-! SUPPORT. Tests. Expected values come from the spec: decode tests from the encoding maps of 30_encoding.md, one for every
constructor; step tests from the vectors of 95_test_vectors.md, whose ids their names carry; then a witness for the
hypotheses of each obligation that has some. -/

namespace Sys2Proof.Tests

open Sys2Proof Sys2Proof.Machine

/-! ### Helpers -/

/-- The neutral start state of 95_test_vectors.md section 2. -/
def neutral : State := { State.reset with
  a := 0, f := 0, b := 0, c := 0, d := 0, e := 0, h := 0, l := 0, aAlt := 0, fAlt := 0, bAlt := 0, cAlt := 0, dAlt := 0,
  eAlt := 0, hAlt := 0, lAlt := 0, ix := 0, iy := 0, sp := 0x8000#16, memptr := 0 }

/-- Bytes placed in memory from an address on. -/
def bytesAt (s : State) (a : Word) : List Byte → State
  | [] => s
  | b :: bs => bytesAt (s.poke a b) (a + 1#16) bs

/-- The state after the prefix step of a DD or FD at PC: the next step runs the prefixed instruction (30_encoding.md R117). -/
def afterPrefix (x : Idx) (s : State) : State := { s with pfx := some x, pc := s.pc + 1#16, r := s.r + 1#8 }

/-- What a view shows of the state after one step. -/
def sees {α : Type} (s : State) (view : State → α) : Option α :=
  match step s with
  | .next t => some (view t)
  | .fault _ => none
  | .refused _ => none

/-- The refusal a step ends in. -/
def refuses (s : State) : Option Refusal :=
  match step s with
  | .next _ => none
  | .fault _ => none
  | .refused e => some e

/-- The instruction that the bytes decode to under a latch. -/
def reads (latch : Option Idx) (bs : List Byte) : Instr :=
  decodeAt latch (bs.getD 0 0#8) (bs.getD 1 0#8) (bs.getD 2 0#8) (bs.getD 3 0#8)

/-! ### WellFormed refuses ill-formed terms (the constraints of spec/opcode_table.json) -/

theorem test_wellFormed_jrCc_po : (Instr.jrCc .po 0x00#8).wellFormed = false := by decide
theorem test_wellFormed_retn_reti : (Instr.retn 1#3).wellFormed = false := by decide
theorem test_wellFormed_nopEd2_block : (Instr.nopEd2 4#3 0#3).wellFormed = false := by decide
theorem test_wellFormed_ldRRX_no_half : (Instr.ldRRX .ix .b .a).wellFormed = false := by decide
theorem test_wellFormed_prefixIgnored_indexable : (Instr.prefixIgnored .ix 0x21#8 0#8 0#8).wellFormed = false := by decide
theorem test_wellFormed_prefixIgnored_prefix : (Instr.prefixIgnored .ix 0xCB#8 0#8 0#8).wellFormed = false := by decide

/-! ### Decoding: a word for every constructor, written out from 30_encoding.md R114 to R117, R120, R121 -/

/-- The base page (30_encoding.md R114). -/
theorem test_decode_base_1 :
    reads none [0x00#8] = .nop ∧
    reads none [0x08#8] = .exAfAf ∧
    reads none [0x10#8, 0xFE#8] = .djnz 0xFE#8 ∧
    reads none [0x18#8, 0x02#8] = .jr 0x02#8 ∧
    reads none [0x30#8, 0x7F#8] = .jrCc .nc 0x7F#8 ∧
    reads none [0x11#8, 0x34#8, 0x12#8] = .ldDdNn .de 0x1234#16 ∧
    reads none [0x39#8] = .addHlSs .sp ∧
    reads none [0x12#8] = .ldPairA .de ∧
    reads none [0x0A#8] = .ldAPair .bc ∧
    reads none [0x22#8, 0x34#8, 0x12#8] = .ldNnHl 0x1234#16 ∧
    reads none [0x2A#8, 0x34#8, 0x12#8] = .ldHlNn 0x1234#16 ∧
    reads none [0x32#8, 0x34#8, 0x12#8] = .ldNnA 0x1234#16 ∧
    reads none [0x3A#8, 0x34#8, 0x12#8] = .ldANn 0x1234#16 := by decide

/-- The base page (30_encoding.md R114). -/
theorem test_decode_base_2 :
    reads none [0x23#8] = .incSs .hl ∧
    reads none [0x0B#8] = .decSs .bc ∧
    reads none [0x3C#8] = .incR .a ∧
    reads none [0x34#8] = .incM ∧
    reads none [0x05#8] = .decR .b ∧
    reads none [0x35#8] = .decM ∧
    reads none [0x26#8, 0x55#8] = .ldRN .h 0x55#8 ∧
    reads none [0x36#8, 0x55#8] = .ldMN 0x55#8 ∧
    reads none [0x07#8] = .rlca ∧
    reads none [0x0F#8] = .rrca ∧
    reads none [0x17#8] = .rla ∧
    reads none [0x1F#8] = .rra ∧
    reads none [0x27#8] = .daa := by decide

/-- The base page (30_encoding.md R114). -/
theorem test_decode_base_3 :
    reads none [0x2F#8] = .cpl ∧
    reads none [0x37#8] = .scf ∧
    reads none [0x3F#8] = .ccf ∧
    reads none [0x5F#8] = .ldRR .e .a ∧
    reads none [0x4E#8] = .ldRM .c ∧
    reads none [0x70#8] = .ldMR .b ∧
    reads none [0x76#8] = .halt ∧
    reads none [0x81#8] = .addAR .c ∧
    reads none [0x86#8] = .addAM ∧
    reads none [0xC6#8, 0x55#8] = .addAN 0x55#8 ∧
    reads none [0x8A#8] = .adcAR .d ∧
    reads none [0x8E#8] = .adcAM ∧
    reads none [0xCE#8, 0x55#8] = .adcAN 0x55#8 := by decide

/-- The base page (30_encoding.md R114). -/
theorem test_decode_base_4 :
    reads none [0x93#8] = .subR .e ∧
    reads none [0x96#8] = .subM ∧
    reads none [0xD6#8, 0x55#8] = .subN 0x55#8 ∧
    reads none [0x9C#8] = .sbcAR .h ∧
    reads none [0x9E#8] = .sbcAM ∧
    reads none [0xDE#8, 0x55#8] = .sbcAN 0x55#8 ∧
    reads none [0xA5#8] = .andR .l ∧
    reads none [0xA6#8] = .andM ∧
    reads none [0xE6#8, 0x55#8] = .andN 0x55#8 ∧
    reads none [0xAF#8] = .xorR .a ∧
    reads none [0xAE#8] = .xorM ∧
    reads none [0xEE#8, 0x55#8] = .xorN 0x55#8 ∧
    reads none [0xB0#8] = .orR .b := by decide

/-- The base page (30_encoding.md R114). -/
theorem test_decode_base_5 :
    reads none [0xB6#8] = .orM ∧
    reads none [0xF6#8, 0x55#8] = .orN 0x55#8 ∧
    reads none [0xB9#8] = .cpR .c ∧
    reads none [0xBE#8] = .cpM ∧
    reads none [0xFE#8, 0x55#8] = .cpN 0x55#8 ∧
    reads none [0xE0#8] = .retCc .po ∧
    reads none [0xF1#8] = .popQq .af ∧
    reads none [0xC9#8] = .ret ∧
    reads none [0xD9#8] = .exx ∧
    reads none [0xE9#8] = .jpHl ∧
    reads none [0xF9#8] = .ldSpHl ∧
    reads none [0xFA#8, 0x34#8, 0x12#8] = .jpCcNn .m 0x1234#16 ∧
    reads none [0xC3#8, 0x34#8, 0x12#8] = .jpNn 0x1234#16 := by decide

/-- The base page (30_encoding.md R114). -/
theorem test_decode_base_6 :
    reads none [0xD3#8, 0x55#8] = .outNA 0x55#8 ∧
    reads none [0xDB#8, 0x55#8] = .inAN 0x55#8 ∧
    reads none [0xE3#8] = .exSpHl ∧
    reads none [0xEB#8] = .exDeHl ∧
    reads none [0xF3#8] = .di ∧
    reads none [0xFB#8] = .ei ∧
    reads none [0xEC#8, 0x34#8, 0x12#8] = .callCcNn .pe 0x1234#16 ∧
    reads none [0xD5#8] = .pushQq .de ∧
    reads none [0xCD#8, 0x34#8, 0x12#8] = .callNn 0x1234#16 ∧
    reads none [0xDD#8] = .ddFdPrefix .ix ∧
    reads none [0xEF#8] = .rst 5#3 := by decide

/-- The CB page (30_encoding.md R115). -/
theorem test_decode_cb_1 :
    reads none [0xCB#8, 0x01#8] = .rlcR .c ∧
    reads none [0xCB#8, 0x06#8] = .rlcM ∧
    reads none [0xCB#8, 0x0A#8] = .rrcR .d ∧
    reads none [0xCB#8, 0x0E#8] = .rrcM ∧
    reads none [0xCB#8, 0x13#8] = .rlR .e ∧
    reads none [0xCB#8, 0x16#8] = .rlM ∧
    reads none [0xCB#8, 0x1C#8] = .rrR .h ∧
    reads none [0xCB#8, 0x1E#8] = .rrM ∧
    reads none [0xCB#8, 0x25#8] = .slaR .l ∧
    reads none [0xCB#8, 0x26#8] = .slaM ∧
    reads none [0xCB#8, 0x2F#8] = .sraR .a ∧
    reads none [0xCB#8, 0x2E#8] = .sraM ∧
    reads none [0xCB#8, 0x30#8] = .sllR .b := by decide

/-- The CB page (30_encoding.md R115). -/
theorem test_decode_cb_2 :
    reads none [0xCB#8, 0x36#8] = .sllM ∧
    reads none [0xCB#8, 0x39#8] = .srlR .c ∧
    reads none [0xCB#8, 0x3E#8] = .srlM ∧
    reads none [0xCB#8, 0x7C#8] = .bitR 7#3 .h ∧
    reads none [0xCB#8, 0x46#8] = .bitM 0#3 ∧
    reads none [0xCB#8, 0x87#8] = .resR 0#3 .a ∧
    reads none [0xCB#8, 0xBE#8] = .resM 7#3 ∧
    reads none [0xCB#8, 0xD8#8] = .setR 3#3 .b ∧
    reads none [0xCB#8, 0xE6#8] = .setM 4#3 := by decide

/-- The ED page (30_encoding.md R120). -/
theorem test_decode_ed_1 :
    reads none [0xED#8, 0x50#8] = .inRC .d ∧
    reads none [0xED#8, 0x70#8] = .inC ∧
    reads none [0xED#8, 0x79#8] = .outCR .a ∧
    reads none [0xED#8, 0x71#8] = .outC0 ∧
    reads none [0xED#8, 0x42#8] = .sbcHlSs .bc ∧
    reads none [0xED#8, 0x7A#8] = .adcHlSs .sp ∧
    reads none [0xED#8, 0x53#8, 0x34#8, 0x12#8] = .ldNnDd .de 0x1234#16 ∧
    reads none [0xED#8, 0x6B#8, 0x34#8, 0x12#8] = .ldDdMem .hl 0x1234#16 ∧
    reads none [0xED#8, 0x7C#8] = .neg 7#3 ∧
    reads none [0xED#8, 0x4D#8] = .reti ∧
    reads none [0xED#8, 0x45#8] = .retn 0#3 ∧
    reads none [0xED#8, 0x6E#8] = .im0 true true ∧
    reads none [0xED#8, 0x56#8] = .im1 false := by decide

/-- The ED page (30_encoding.md R120). -/
theorem test_decode_ed_2 :
    reads none [0xED#8, 0x7E#8] = .im2 true ∧
    reads none [0xED#8, 0x47#8] = .ldIA ∧
    reads none [0xED#8, 0x4F#8] = .ldRA ∧
    reads none [0xED#8, 0x57#8] = .ldAI ∧
    reads none [0xED#8, 0x5F#8] = .ldAR ∧
    reads none [0xED#8, 0x67#8] = .rrd ∧
    reads none [0xED#8, 0x6F#8] = .rld ∧
    reads none [0xED#8, 0x7F#8] = .nopEd7 true ∧
    reads none [0xED#8, 0xA0#8] = .ldi ∧
    reads none [0xED#8, 0xA1#8] = .cpi ∧
    reads none [0xED#8, 0xA2#8] = .ini ∧
    reads none [0xED#8, 0xA3#8] = .outi ∧
    reads none [0xED#8, 0xA8#8] = .ldd := by decide

/-- The ED page (30_encoding.md R120). -/
theorem test_decode_ed_3 :
    reads none [0xED#8, 0xA9#8] = .cpd ∧
    reads none [0xED#8, 0xAA#8] = .ind ∧
    reads none [0xED#8, 0xAB#8] = .outd ∧
    reads none [0xED#8, 0xB0#8] = .ldir ∧
    reads none [0xED#8, 0xB1#8] = .cpir ∧
    reads none [0xED#8, 0xB2#8] = .inir ∧
    reads none [0xED#8, 0xB3#8] = .otir ∧
    reads none [0xED#8, 0xB8#8] = .lddr ∧
    reads none [0xED#8, 0xB9#8] = .cpdr ∧
    reads none [0xED#8, 0xBA#8] = .indr ∧
    reads none [0xED#8, 0xBB#8] = .otdr ∧
    reads none [0xED#8, 0x3F#8] = .nopEd0 0x3F#6 ∧
    reads none [0xED#8, 0xA4#8] = .nopEd2 4#3 4#3 := by decide

/-- The ED page (30_encoding.md R120). -/
theorem test_decode_ed_4 :
    reads none [0xED#8, 0xC0#8] = .nopEd3 0#6 := by decide

/-- After a DD prefix (30_encoding.md R116). -/
theorem test_decode_index_1 :
    reads (some .ix) [0x29#8] = .addIxPp .ix .ix ∧
    reads (some .ix) [0x21#8, 0x34#8, 0x12#8] = .ldIxNn .ix 0x1234#16 ∧
    reads (some .ix) [0x22#8, 0x34#8, 0x12#8] = .ldNnIx .ix 0x1234#16 ∧
    reads (some .ix) [0x23#8] = .incIx .ix ∧
    reads (some .ix) [0x24#8] = .incXh .ix .high ∧
    reads (some .ix) [0x2D#8] = .decXh .ix .low ∧
    reads (some .ix) [0x26#8, 0x55#8] = .ldXhN .ix .high 0x55#8 ∧
    reads (some .ix) [0x2A#8, 0x34#8, 0x12#8] = .ldIxMem .ix 0x1234#16 ∧
    reads (some .ix) [0x2B#8] = .decIx .ix ∧
    reads (some .ix) [0x34#8, 0xFE#8] = .incXd .ix 0xFE#8 ∧
    reads (some .ix) [0x35#8, 0x01#8] = .decXd .ix 0x01#8 ∧
    reads (some .ix) [0x36#8, 0x01#8, 0x55#8] = .ldXdN .ix 0x01#8 0x55#8 ∧
    reads (some .ix) [0x66#8, 0x05#8] = .ldRXd .ix .h 0x05#8 := by decide

/-- After a DD prefix (30_encoding.md R116). -/
theorem test_decode_index_2 :
    reads (some .ix) [0x75#8, 0x05#8] = .ldXdR .ix .l 0x05#8 ∧
    reads (some .ix) [0x6F#8] = .ldRRX .ix .xl .a ∧
    reads (some .ix) [0x84#8] = .addAXh .ix .high ∧
    reads (some .ix) [0x86#8, 0x01#8] = .addAXd .ix 0x01#8 ∧
    reads (some .ix) [0x8D#8] = .adcAXh .ix .low ∧
    reads (some .ix) [0x8E#8, 0x01#8] = .adcAXd .ix 0x01#8 ∧
    reads (some .ix) [0x94#8] = .subXh .ix .high ∧
    reads (some .ix) [0x96#8, 0x01#8] = .subXd .ix 0x01#8 ∧
    reads (some .ix) [0x9D#8] = .sbcAXh .ix .low ∧
    reads (some .ix) [0x9E#8, 0x01#8] = .sbcAXd .ix 0x01#8 ∧
    reads (some .ix) [0xA4#8] = .andXh .ix .high ∧
    reads (some .ix) [0xA6#8, 0x01#8] = .andXd .ix 0x01#8 ∧
    reads (some .ix) [0xAD#8] = .xorXh .ix .low := by decide

/-- After a DD prefix (30_encoding.md R116). -/
theorem test_decode_index_3 :
    reads (some .ix) [0xAE#8, 0x01#8] = .xorXd .ix 0x01#8 ∧
    reads (some .ix) [0xB4#8] = .orXh .ix .high ∧
    reads (some .ix) [0xB6#8, 0x01#8] = .orXd .ix 0x01#8 ∧
    reads (some .ix) [0xBD#8] = .cpXh .ix .low ∧
    reads (some .ix) [0xBE#8, 0x01#8] = .cpXd .ix 0x01#8 ∧
    reads (some .ix) [0xE1#8] = .popIx .ix ∧
    reads (some .ix) [0xE3#8] = .exSpIx .ix ∧
    reads (some .ix) [0xE5#8] = .pushIx .ix ∧
    reads (some .ix) [0xE9#8] = .jpIx .ix ∧
    reads (some .ix) [0xF9#8] = .ldSpIx .ix ∧
    reads (some .ix) [0xFD#8] = .prefixAgain .iy := by decide

/-- The DD CB page (30_encoding.md R121). -/
theorem test_decode_indexCb_1 :
    reads (some .ix) [0xCB#8, 0x01#8, 0x00#8] = .rlcXd .ix 0x01#8 (some .b) ∧
    reads (some .ix) [0xCB#8, 0x01#8, 0x0E#8] = .rrcXd .ix 0x01#8 none ∧
    reads (some .ix) [0xCB#8, 0x01#8, 0x11#8] = .rlXd .ix 0x01#8 (some .c) ∧
    reads (some .ix) [0xCB#8, 0x01#8, 0x1E#8] = .rrXd .ix 0x01#8 none ∧
    reads (some .ix) [0xCB#8, 0x01#8, 0x22#8] = .slaXd .ix 0x01#8 (some .d) ∧
    reads (some .ix) [0xCB#8, 0x01#8, 0x2E#8] = .sraXd .ix 0x01#8 none ∧
    reads (some .ix) [0xCB#8, 0x01#8, 0x33#8] = .sllXd .ix 0x01#8 (some .e) ∧
    reads (some .ix) [0xCB#8, 0x01#8, 0x3E#8] = .srlXd .ix 0x01#8 none ∧
    reads (some .ix) [0xCB#8, 0x05#8, 0x46#8] = .bitXd .ix 0#3 0x05#8 6#3 ∧
    reads (some .ix) [0xCB#8, 0xFF#8, 0x87#8] = .resXd .ix 0#3 0xFF#8 (some .a) ∧
    reads (some .ix) [0xCB#8, 0xFF#8, 0xFE#8] = .setXd .ix 7#3 0xFF#8 none := by decide

/-- After an FD prefix the same bytes name IY; an ED or a non-indexable opcode ignores the prefix (30_encoding.md R116,
R118). -/
theorem test_decode_iy :
    reads (some .iy) [0x21#8, 0x34#8, 0x12#8] = .ldIxNn .iy 0x1234#16 ∧
    reads (some .iy) [0xCB#8, 0xFF#8, 0x87#8] = .resXd .iy 0#3 0xFF#8 (some .a) ∧
    reads (some .iy) [0xED#8, 0x44#8] = .neg 0#3 ∧
    reads (some .iy) [0xEB#8] = .exDeHl ∧
    reads (some .iy) [0xDD#8] = .prefixAgain .ix := by decide

/-- The naming rows name the instruction their bytes decode to (log entry 10). -/
theorem test_decode_named :
    (Instr.cbPrefix 0x01#8).resolve = .rlcR .c ∧
    (Instr.edPrefix 0x43#8 0x00#8 0x70#8).resolve = .ldNnDd .bc 0x7000#16 ∧
    (Instr.ddCb .iy 0x02#8 0xFE#8).resolve = .setXd .iy 7#3 0x02#8 none ∧
    (Instr.edAfterIndex .ix 0xB0#8 0x00#8 0x00#8).resolve = .ldir ∧
    (Instr.prefixIgnored .ix 0xEB#8 0x00#8 0x00#8).resolve = .exDeHl := by decide

/-- A word as spec/opcode_table.json numbers its bits: bit 0 is the lowest bit of the first byte. -/
theorem test_decodeTableWord :
    decodeTableWord 8 0x76 = some .halt ∧ decodeTableWord 24 0x1234C3 = some (.jpNn 0x1234#16) ∧
    decodeTableWord 16 0xB0ED = some .ldir ∧ decodeTableWord 32 0x7F1036DD = some (.ldXdN .ix 0x10#8 0x7F#8) := by decide

/-- The word stored by `withFetchWord` is the one the next step runs. -/
theorem test_withFetchWord :
    sees (neutral.withFetchWord 24 0x1234C3) (fun t => (t.pc, t.memptr, t.kind)) = some (0x1234#16, 0x1234#16, .insn) := by
  decide
theorem test_withFetchWord_prefixed :
    sees (neutral.withFetchWord 16 0x23FD) (fun t => (t.iy, t.pfx, t.kind)) = some (0x0001#16, none, .insn) := by decide

/-! ### One step: the vectors of 95_test_vectors.md section 2 -/

/-- `LD A,B` (R200). -/
theorem test_V_LD1 :
    sees (bytesAt { neutral with b := 0x12#8 } 0x0000#16 [0x78#8])
      (fun t => (t.a, t.f, t.pc, t.r)) =
    some (0x12#8, 0x00#8, 0x0001#16, 0x01#8) := by decide
/-- `LD (HL),n` (R204). -/
theorem test_V_LD2 :
    sees (bytesAt { neutral with h := 0x40#8, l := 0x00#8 } 0x0000#16 [0x36#8, 0x5A#8])
      (fun t => (t.f, t.pc, t.r, t.peek 0x4000#16)) =
    some (0x00#8, 0x0002#16, 0x01#8, 0x5A#8) := by decide
/-- `LD A,(BC)` (R210). -/
theorem test_V_LD3 :
    sees ((bytesAt { neutral with b := 0x40#8, c := 0x00#8 } 0x0000#16 [0x0A#8]).poke 0x4000#16 0x77#8)
      (fun t => (t.a, t.f, t.pc, t.r, t.memptr)) =
    some (0x77#8, 0x00#8, 0x0001#16, 0x01#8, 0x4001#16) := by decide
/-- `LD (DE),A` (R211). -/
theorem test_V_LD4 :
    sees (bytesAt { neutral with d := 0x40#8, e := 0xFF#8, a := 0x99#8 } 0x0000#16 [0x12#8])
      (fun t => (t.f, t.pc, t.r, t.memptr, t.peek 0x40FF#16)) =
    some (0x00#8, 0x0001#16, 0x01#8, 0x9900#16, 0x99#8) := by decide
/-- `LD A,(nn)` (R212). -/
theorem test_V_LD5 :
    sees ((bytesAt neutral 0x0000#16 [0x3A#8, 0xFF#8, 0xFF#8]).poke 0xFFFF#16 0x42#8)
      (fun t => (t.a, t.f, t.pc, t.r)) =
    some (0x42#8, 0x00#8, 0x0003#16, 0x01#8) := by decide
/-- `LD (nn),A` (R213). -/
theorem test_V_LD6 :
    sees (bytesAt { neutral with a := 0x56#8 } 0x0000#16 [0x32#8, 0x34#8, 0x12#8])
      (fun t => (t.f, t.pc, t.r, t.memptr, t.peek 0x1234#16)) =
    some (0x00#8, 0x0003#16, 0x01#8, 0x5635#16, 0x56#8) := by decide
/-- `LD (IX-1),n` (R207). -/
theorem test_V_LD7 :
    sees (afterPrefix .ix (bytesAt { neutral with ix := 0x4000#16 } 0x0000#16 [0xDD#8, 0x36#8, 0xFF#8, 0xAB#8]))
      (fun t => (t.f, t.pc, t.r, t.memptr, t.peek 0x3FFF#16)) =
    some (0x00#8, 0x0004#16, 0x02#8, 0x3FFF#16, 0xAB#8) := by decide
/-- `LD H,(IX+5)` (R205). -/
theorem test_V_LD8 :
    sees (afterPrefix .ix ((bytesAt { neutral with
      ix := 0x4000#16 } 0x0000#16 [0xDD#8, 0x66#8, 0x05#8]).poke 0x4005#16 0x3C#8))
      (fun t => (t.f, t.h, t.pc, t.r, t.memptr)) =
    some (0x00#8, 0x3C#8, 0x0003#16, 0x02#8, 0x4005#16) := by decide
/-- `LD IXh,n` (R209). -/
theorem test_V_LD9 :
    sees (afterPrefix .ix (bytesAt { neutral with ix := 0x1234#16 } 0x0000#16 [0xDD#8, 0x26#8, 0x9A#8]))
      (fun t => (t.f, t.ix, t.pc, t.r)) =
    some (0x00#8, 0x9A34#16, 0x0003#16, 0x02#8) := by decide
/-- `LD IYl,A` (R208). -/
theorem test_V_LD10 :
    sees (afterPrefix .iy (bytesAt { neutral with iy := 0x1234#16, a := 0x77#8 } 0x0000#16 [0xFD#8, 0x6F#8]))
      (fun t => (t.f, t.iy, t.pc, t.r)) =
    some (0x00#8, 0x1277#16, 0x0002#16, 0x02#8) := by decide
/-- `LD SP,nn` (R240). -/
theorem test_V_L16a :
    sees (bytesAt { neutral with sp := 0x0000#16 } 0x0000#16 [0x31#8, 0x00#8, 0x80#8])
      (fun t => (t.f, t.sp, t.pc, t.r)) =
    some (0x00#8, 0x8000#16, 0x0003#16, 0x01#8) := by decide
/-- `LD HL,(nn) at 0xFFFF` (R242). -/
theorem test_V_L16b :
    sees (((bytesAt neutral 0x0000#16 [0x2A#8, 0xFF#8, 0xFF#8]).poke 0xFFFF#16 0x34#8).poke 0x0000#16 0x2A#8)
      (fun t => (t.f, t.h, t.l, t.pc, t.r)) =
    some (0x00#8, 0x2A#8, 0x34#8, 0x0003#16, 0x01#8) := by decide
/-- `LD (nn),BC` (R247). -/
theorem test_V_L16c :
    sees (bytesAt { neutral with b := 0xBE#8, c := 0xEF#8 } 0x0000#16 [0xED#8, 0x43#8, 0x00#8, 0x50#8])
      (fun t => (t.f, t.pc, t.r, t.memptr, t.peek 0x5000#16, t.peek 0x5001#16)) =
    some (0x00#8, 0x0004#16, 0x02#8, 0x5001#16, 0xEF#8, 0xBE#8) := by decide
/-- `PUSH BC with SP = 0x0001` (R250). -/
theorem test_V_L16d :
    sees (bytesAt { neutral with pc := 0x0100#16, sp := 0x0001#16, b := 0x12#8, c := 0x34#8 } 0x0100#16 [0xC5#8])
      (fun t => (t.f, t.sp, t.pc, t.r, t.peek 0x0000#16, t.peek 0xFFFF#16)) =
    some (0x00#8, 0xFFFF#16, 0x0101#16, 0x01#8, 0x12#8, 0x34#8) := by decide
/-- `POP AF` (R252). -/
theorem test_V_L16e :
    sees (((bytesAt { neutral with sp := 0x7FFE#16 } 0x0000#16 [0xF1#8]).poke 0x7FFE#16 0xD7#8).poke 0x7FFF#16 0x00#8)
      (fun t => (t.f, t.sp, t.pc, t.r)) =
    some (0xD7#8, 0x8000#16, 0x0001#16, 0x01#8) := by decide
/-- `EX (SP),HL` (R257). -/
theorem test_V_L16f :
    sees (((bytesAt { neutral with
      sp := 0x7000#16, h := 0x12#8, l := 0x34#8 } 0x0000#16 [0xE3#8]).poke 0x7000#16 0x78#8).poke 0x7001#16 0x56#8)
      (fun t => (t.f, t.h, t.l, t.pc, t.r, t.memptr, t.peek 0x7000#16, t.peek 0x7001#16)) =
    some (0x00#8, 0x56#8, 0x78#8, 0x0001#16, 0x01#8, 0x5678#16, 0x34#8, 0x12#8) := by decide
/-- `EXX` (R256). -/
theorem test_V_L16g :
    sees (bytesAt { neutral with
      b := 0x11#8, c := 0x11#8, d := 0x22#8, e := 0x22#8, h := 0x33#8, l := 0x33#8, bAlt := 0xAA#8,
      cAlt := 0xBB#8 } 0x0000#16 [0xD9#8])
      (fun t => (t.f, t.b, t.c, t.d, t.e, t.h, t.l, t.pc, t.r, t.bAlt, t.cAlt, t.dAlt, t.eAlt, t.hAlt, t.lAlt)) =
    some (0x00#8, 0xAA#8, 0xBB#8, 0x00#8, 0x00#8, 0x00#8, 0x00#8, 0x0001#16, 0x01#8, 0x11#8, 0x11#8, 0x22#8, 0x22#8,
      0x33#8, 0x33#8) := by decide
/-- `EX AF,AF'` (R255). -/
theorem test_V_L16h :
    sees (bytesAt { neutral with a := 0x01#8, f := 0x02#8, aAlt := 0x03#8, fAlt := 0x04#8 } 0x0000#16 [0x08#8])
      (fun t => (t.a, t.f, t.pc, t.r, t.aAlt, t.fAlt)) =
    some (0x03#8, 0x04#8, 0x0001#16, 0x01#8, 0x01#8, 0x02#8) := by decide
/-- `LD SP,IY` (R249). -/
theorem test_V_L16i :
    sees (afterPrefix .iy (bytesAt { neutral with iy := 0x9000#16 } 0x0000#16 [0xFD#8, 0xF9#8]))
      (fun t => (t.f, t.sp, t.pc, t.r)) =
    some (0x00#8, 0x9000#16, 0x0002#16, 0x02#8) := by decide
/-- `POP IX with SP = 0xFFFF` (R253). -/
theorem test_V_L16j :
    sees (afterPrefix .ix ((bytesAt { neutral with sp := 0xFFFF#16 } 0x0000#16 [0xDD#8, 0xE1#8]).poke 0xFFFF#16 0x11#8))
      (fun t => (t.f, t.ix, t.sp, t.pc, t.r)) =
    some (0x00#8, 0xDD11#16, 0x0001#16, 0x0002#16, 0x02#8) := by decide
/-- `ADD A,B` (R281). -/
theorem test_V_A1 :
    sees (bytesAt { neutral with a := 0xFF#8, b := 0x01#8 } 0x0000#16 [0x80#8])
      (fun t => (t.a, t.f, t.pc, t.r)) =
    some (0x00#8, 0x51#8, 0x0001#16, 0x01#8) := by decide
/-- `ADD A,n overflow` (R281). -/
theorem test_V_A2 :
    sees (bytesAt { neutral with a := 0x7F#8 } 0x0000#16 [0xC6#8, 0x01#8])
      (fun t => (t.a, t.f, t.pc, t.r)) =
    some (0x80#8, 0x94#8, 0x0002#16, 0x01#8) := by decide
/-- `ADC A,n with C` (R282). -/
theorem test_V_A3 :
    sees (bytesAt { neutral with a := 0x10#8, f := 0x01#8 } 0x0000#16 [0xCE#8, 0x20#8])
      (fun t => (t.a, t.f, t.pc, t.r)) =
    some (0x31#8, 0x20#8, 0x0002#16, 0x01#8) := by decide
/-- `ADC A,n carry out` (R282). -/
theorem test_V_A4 :
    sees (bytesAt { neutral with a := 0x00#8, f := 0x01#8 } 0x0000#16 [0xCE#8, 0xFF#8])
      (fun t => (t.f, t.pc, t.r)) =
    some (0x51#8, 0x0002#16, 0x01#8) := by decide
/-- `SUB n` (R283). -/
theorem test_V_A5 :
    sees (bytesAt { neutral with a := 0x80#8 } 0x0000#16 [0xD6#8, 0x01#8])
      (fun t => (t.a, t.f, t.pc, t.r)) =
    some (0x7F#8, 0x3E#8, 0x0002#16, 0x01#8) := by decide
/-- `SBC A,n borrow` (R284). -/
theorem test_V_A7 :
    sees (bytesAt { neutral with a := 0x00#8, f := 0x01#8 } 0x0000#16 [0xDE#8, 0x00#8])
      (fun t => (t.a, t.f, t.pc, t.r)) =
    some (0xFF#8, 0xBB#8, 0x0002#16, 0x01#8) := by decide
/-- `AND n` (R285). -/
theorem test_V_A8 :
    sees (bytesAt { neutral with a := 0x3C#8, f := 0x01#8 } 0x0000#16 [0xE6#8, 0x0F#8])
      (fun t => (t.a, t.f, t.pc, t.r)) =
    some (0x0C#8, 0x1C#8, 0x0002#16, 0x01#8) := by decide
/-- `XOR A` (R286). -/
theorem test_V_A9 :
    sees (bytesAt { neutral with a := 0xFF#8 } 0x0000#16 [0xAF#8])
      (fun t => (t.a, t.f, t.pc, t.r)) =
    some (0x00#8, 0x44#8, 0x0001#16, 0x01#8) := by decide
/-- `OR n` (R287). -/
theorem test_V_A10 :
    sees (bytesAt { neutral with a := 0x04#8 } 0x0000#16 [0xF6#8, 0x80#8])
      (fun t => (t.a, t.f, t.pc, t.r)) =
    some (0x84#8, 0x84#8, 0x0002#16, 0x01#8) := by decide
/-- `CP n, X/Y from operand` (R288). -/
theorem test_V_A11 :
    sees (bytesAt { neutral with a := 0x10#8 } 0x0000#16 [0xFE#8, 0x28#8])
      (fun t => (t.f, t.pc, t.r)) =
    some (0xBB#8, 0x0002#16, 0x01#8) := by decide
/-- `CP (HL) equal` (R288). -/
theorem test_V_A12 :
    sees ((bytesAt { neutral with a := 0x42#8, h := 0x40#8, l := 0x00#8 } 0x0000#16 [0xBE#8]).poke 0x4000#16 0x42#8)
      (fun t => (t.f, t.pc, t.r)) =
    some (0x42#8, 0x0001#16, 0x01#8) := by decide
/-- `INC A 0x7F` (R289). -/
theorem test_V_A13 :
    sees (bytesAt { neutral with a := 0x7F#8, f := 0x01#8 } 0x0000#16 [0x3C#8])
      (fun t => (t.a, t.f, t.pc, t.r)) =
    some (0x80#8, 0x95#8, 0x0001#16, 0x01#8) := by decide
/-- `INC B 0xFF` (R289). -/
theorem test_V_A14 :
    sees (bytesAt { neutral with b := 0xFF#8 } 0x0000#16 [0x04#8])
      (fun t => (t.f, t.b, t.pc, t.r)) =
    some (0x50#8, 0x00#8, 0x0001#16, 0x01#8) := by decide
/-- `DEC C 0x80` (R292). -/
theorem test_V_A15 :
    sees (bytesAt { neutral with c := 0x80#8 } 0x0000#16 [0x0D#8])
      (fun t => (t.f, t.c, t.pc, t.r)) =
    some (0x3E#8, 0x7F#8, 0x0001#16, 0x01#8) := by decide
/-- `DEC (HL) 0x00` (R293). -/
theorem test_V_A16 :
    sees ((bytesAt { neutral with h := 0x40#8, l := 0x00#8 } 0x0000#16 [0x35#8]).poke 0x4000#16 0x00#8)
      (fun t => (t.f, t.pc, t.r, t.peek 0x4000#16)) =
    some (0xBA#8, 0x0001#16, 0x01#8, 0xFF#8) := by decide
/-- `INC (IX+d) d = -2` (R291). -/
theorem test_V_A17 :
    sees (afterPrefix .ix ((bytesAt { neutral with
      ix := 0x4002#16 } 0x0000#16 [0xDD#8, 0x34#8, 0xFE#8]).poke 0x4000#16 0x0F#8))
      (fun t => (t.f, t.pc, t.r, t.memptr, t.peek 0x4000#16)) =
    some (0x10#8, 0x0003#16, 0x02#8, 0x4000#16, 0x10#8) := by decide
/-- `ADD A,IXh` (R281). -/
theorem test_V_A18 :
    sees (afterPrefix .ix (bytesAt { neutral with a := 0x01#8, ix := 0x0F00#16 } 0x0000#16 [0xDD#8, 0x84#8]))
      (fun t => (t.a, t.f, t.pc, t.r)) =
    some (0x10#8, 0x10#8, 0x0002#16, 0x02#8) := by decide
/-- `ADD HL,DE half-carry` (R320). -/
theorem test_V_B1 :
    sees (bytesAt { neutral with h := 0x0F#8, l := 0xFF#8, d := 0x00#8, e := 0x01#8 } 0x0000#16 [0x19#8])
      (fun t => (t.f, t.h, t.l, t.pc, t.r, t.memptr)) =
    some (0x10#8, 0x10#8, 0x00#8, 0x0001#16, 0x01#8, 0x1000#16) := by decide
/-- `ADD HL,HL carry` (R320). -/
theorem test_V_B2 :
    sees (bytesAt { neutral with h := 0x80#8, l := 0x00#8, f := 0xC4#8 } 0x0000#16 [0x29#8])
      (fun t => (t.f, t.h, t.pc, t.r, t.memptr)) =
    some (0xC5#8, 0x00#8, 0x0001#16, 0x01#8, 0x8001#16) := by decide
/-- `ADC HL,BC overflow` (R322). -/
theorem test_V_B3 :
    sees (bytesAt { neutral with h := 0x7F#8, l := 0xFF#8, b := 0x00#8, c := 0x00#8, f := 0x01#8 } 0x0000#16 [0xED#8, 0x4A#8])
      (fun t => (t.f, t.h, t.l, t.pc, t.r, t.memptr)) =
    some (0x94#8, 0x80#8, 0x00#8, 0x0002#16, 0x02#8, 0x8000#16) := by decide
/-- `SBC HL,DE to zero` (R323). -/
theorem test_V_B4 :
    sees (bytesAt { neutral with h := 0x12#8, l := 0x34#8, d := 0x12#8, e := 0x34#8 } 0x0000#16 [0xED#8, 0x52#8])
      (fun t => (t.f, t.h, t.l, t.pc, t.r, t.memptr)) =
    some (0x42#8, 0x00#8, 0x00#8, 0x0002#16, 0x02#8, 0x1235#16) := by decide
/-- `SBC HL,BC borrow` (R323). -/
theorem test_V_B5 :
    sees (bytesAt { neutral with h := 0x00#8, l := 0x00#8, b := 0x00#8, c := 0x01#8 } 0x0000#16 [0xED#8, 0x42#8])
      (fun t => (t.f, t.h, t.l, t.pc, t.r, t.memptr)) =
    some (0xBB#8, 0xFF#8, 0xFF#8, 0x0002#16, 0x02#8, 0x0001#16) := by decide
/-- `INC BC 0xFFFF` (R324). -/
theorem test_V_B6 :
    sees (bytesAt { neutral with b := 0xFF#8, c := 0xFF#8, f := 0xD7#8 } 0x0000#16 [0x03#8])
      (fun t => (t.f, t.b, t.c, t.pc, t.r)) =
    some (0xD7#8, 0x00#8, 0x00#8, 0x0001#16, 0x01#8) := by decide
/-- `DEC SP 0x0000` (R326). -/
theorem test_V_B7 :
    sees (bytesAt { neutral with sp := 0x0000#16 } 0x0000#16 [0x3B#8])
      (fun t => (t.f, t.sp, t.pc, t.r)) =
    some (0x00#8, 0xFFFF#16, 0x0001#16, 0x01#8) := by decide
/-- `ADD IX,IX` (R321). -/
theorem test_V_B8 :
    sees (afterPrefix .ix (bytesAt { neutral with ix := 0x4000#16 } 0x0000#16 [0xDD#8, 0x29#8]))
      (fun t => (t.f, t.ix, t.pc, t.r, t.memptr)) =
    some (0x00#8, 0x8000#16, 0x0002#16, 0x02#8, 0x4001#16) := by decide
/-- `DAA after 0x15 + 0x27` (R328). -/
theorem test_V_B9 :
    sees (bytesAt { neutral with a := 0x3C#8, f := 0x00#8 } 0x0000#16 [0x27#8])
      (fun t => (t.a, t.f, t.pc, t.r)) =
    some (0x42#8, 0x14#8, 0x0001#16, 0x01#8) := by decide
/-- `DAA 0x9A` (R328). -/
theorem test_V_B10 :
    sees (bytesAt { neutral with a := 0x9A#8, f := 0x00#8 } 0x0000#16 [0x27#8])
      (fun t => (t.a, t.f, t.pc, t.r)) =
    some (0x00#8, 0x55#8, 0x0001#16, 0x01#8) := by decide
/-- `CPL` (R329). -/
theorem test_V_B12 :
    sees (bytesAt { neutral with a := 0x5A#8, f := 0x81#8 } 0x0000#16 [0x2F#8])
      (fun t => (t.a, t.f, t.pc, t.r)) =
    some (0xA5#8, 0xB3#8, 0x0001#16, 0x01#8) := by decide
/-- `NEG 0x80` (R330). -/
theorem test_V_B13 :
    sees (bytesAt { neutral with a := 0x80#8 } 0x0000#16 [0xED#8, 0x44#8])
      (fun t => (t.f, t.pc, t.r)) =
    some (0x87#8, 0x0002#16, 0x02#8) := by decide
/-- `NEG 0x00` (R330). -/
theorem test_V_B14 :
    sees (bytesAt { neutral with a := 0x00#8 } 0x0000#16 [0xED#8, 0x44#8])
      (fun t => (t.f, t.pc, t.r)) =
    some (0x42#8, 0x0002#16, 0x02#8) := by decide
/-- `SCF, previous wrote no F` (R331). -/
theorem test_V_B16 :
    sees (bytesAt { neutral with a := 0x28#8, f := 0x00#8 } 0x0000#16 [0x37#8])
      (fun t => (t.f, t.pc, t.r)) =
    some (0x29#8, 0x0001#16, 0x01#8) := by decide
/-- `CCF with C = 1` (R332). -/
theorem test_V_B17 :
    sees (bytesAt { neutral with a := 0x00#8, f := 0x01#8 } 0x0000#16 [0x3F#8])
      (fun t => (t.f, t.pc, t.r)) =
    some (0x10#8, 0x0001#16, 0x01#8) := by decide
/-- `RLCA` (R360). -/
theorem test_V_C1 :
    sees (bytesAt { neutral with a := 0x80#8, f := 0xC4#8 } 0x0000#16 [0x07#8])
      (fun t => (t.a, t.f, t.pc, t.r)) =
    some (0x01#8, 0xC5#8, 0x0001#16, 0x01#8) := by decide
/-- `RRA with C = 1` (R363). -/
theorem test_V_C2 :
    sees (bytesAt { neutral with a := 0x01#8, f := 0x01#8 } 0x0000#16 [0x1F#8])
      (fun t => (t.a, t.f, t.pc, t.r)) =
    some (0x80#8, 0x01#8, 0x0001#16, 0x01#8) := by decide
/-- `RLC B (0x80)` (R365). -/
theorem test_V_C3 :
    sees (bytesAt { neutral with b := 0x80#8 } 0x0000#16 [0xCB#8, 0x00#8])
      (fun t => (t.f, t.b, t.pc, t.r)) =
    some (0x01#8, 0x01#8, 0x0002#16, 0x02#8) := by decide
/-- `RL (HL) with C = 1` (R367). -/
theorem test_V_C4 :
    sees ((bytesAt { neutral with h := 0x40#8, l := 0x00#8, f := 0x01#8 } 0x0000#16 [0xCB#8, 0x16#8]).poke 0x4000#16 0x80#8)
      (fun t => (t.f, t.pc, t.r, t.peek 0x4000#16)) =
    some (0x01#8, 0x0002#16, 0x02#8, 0x01#8) := by decide
/-- `SRA A 0x80` (R370). -/
theorem test_V_C5 :
    sees (bytesAt { neutral with a := 0x80#8 } 0x0000#16 [0xCB#8, 0x2F#8])
      (fun t => (t.a, t.f, t.pc, t.r)) =
    some (0xC0#8, 0x84#8, 0x0002#16, 0x02#8) := by decide
/-- `SLL C 0x80` (R371). -/
theorem test_V_C6 :
    sees (bytesAt { neutral with c := 0x80#8 } 0x0000#16 [0xCB#8, 0x31#8])
      (fun t => (t.f, t.c, t.pc, t.r)) =
    some (0x01#8, 0x01#8, 0x0002#16, 0x02#8) := by decide
/-- `RLC (IX+1),B` (R373). -/
theorem test_V_C8 :
    sees (afterPrefix .ix ((bytesAt { neutral with
      ix := 0x4000#16 } 0x0000#16 [0xDD#8, 0xCB#8, 0x01#8, 0x00#8]).poke 0x4001#16 0x81#8))
      (fun t => (t.f, t.b, t.pc, t.r, t.memptr, t.peek 0x4001#16)) =
    some (0x05#8, 0x03#8, 0x0004#16, 0x02#8, 0x4001#16, 0x03#8) := by decide
/-- `BIT 7,H set` (R374). -/
theorem test_V_C9 :
    sees (bytesAt { neutral with h := 0x80#8, f := 0x01#8 } 0x0000#16 [0xCB#8, 0x7C#8])
      (fun t => (t.f, t.pc, t.r)) =
    some (0x91#8, 0x0002#16, 0x02#8) := by decide
/-- `BIT 0,A clear` (R374). -/
theorem test_V_C10 :
    sees (bytesAt { neutral with a := 0xFE#8 } 0x0000#16 [0xCB#8, 0x47#8])
      (fun t => (t.f, t.pc, t.r)) =
    some (0x7C#8, 0x0002#16, 0x02#8) := by decide
/-- `BIT 0,(HL), X/Y from MEMPTR` (R375). -/
theorem test_V_C11 :
    sees ((bytesAt { neutral with
      h := 0x40#8, l := 0x00#8, memptr := 0x2800#16 } 0x0000#16 [0xCB#8, 0x46#8]).poke 0x4000#16 0x00#8)
      (fun t => (t.f, t.pc, t.r)) =
    some (0x7C#8, 0x0002#16, 0x02#8) := by decide
/-- `BIT 0,(IX+5)` (R376). -/
theorem test_V_C12 :
    sees (afterPrefix .ix ((bytesAt { neutral with
      ix := 0x3F00#16 } 0x0000#16 [0xDD#8, 0xCB#8, 0x05#8, 0x46#8]).poke 0x3F05#16 0x00#8))
      (fun t => (t.f, t.pc, t.r, t.memptr)) =
    some (0x7C#8, 0x0004#16, 0x02#8, 0x3F05#16) := by decide
/-- `SET 7,(HL)` (R377). -/
theorem test_V_C13 :
    sees ((bytesAt { neutral with h := 0x40#8, l := 0x00#8 } 0x0000#16 [0xCB#8, 0xFE#8]).poke 0x4000#16 0x01#8)
      (fun t => (t.f, t.pc, t.r, t.peek 0x4000#16)) =
    some (0x00#8, 0x0002#16, 0x02#8, 0x81#8) := by decide
/-- `RES 0,(IY-1),A` (R380). -/
theorem test_V_C14 :
    sees (afterPrefix .iy ((bytesAt { neutral with
      iy := 0x4001#16 } 0x0000#16 [0xFD#8, 0xCB#8, 0xFF#8, 0x87#8]).poke 0x4000#16 0xFF#8))
      (fun t => (t.a, t.f, t.pc, t.r, t.memptr, t.peek 0x4000#16)) =
    some (0xFE#8, 0x00#8, 0x0004#16, 0x02#8, 0x4000#16, 0xFE#8) := by decide
/-- `RLD` (R381). -/
theorem test_V_C15 :
    sees ((bytesAt { neutral with a := 0x12#8, h := 0x40#8, l := 0x00#8 } 0x0000#16 [0xED#8, 0x6F#8]).poke 0x4000#16 0x34#8)
      (fun t => (t.a, t.f, t.pc, t.r, t.memptr, t.peek 0x4000#16)) =
    some (0x13#8, 0x00#8, 0x0002#16, 0x02#8, 0x4001#16, 0x42#8) := by decide
/-- `RRD` (R382). -/
theorem test_V_C16 :
    sees ((bytesAt { neutral with a := 0x12#8, h := 0x40#8, l := 0x00#8 } 0x0000#16 [0xED#8, 0x67#8]).poke 0x4000#16 0x34#8)
      (fun t => (t.a, t.f, t.pc, t.r, t.memptr, t.peek 0x4000#16)) =
    some (0x14#8, 0x04#8, 0x0002#16, 0x02#8, 0x4001#16, 0x23#8) := by decide
/-- `JP nn` (R400). -/
theorem test_V_J1 :
    sees (bytesAt neutral 0x0000#16 [0xC3#8, 0x00#8, 0x01#8])
      (fun t => (t.f, t.pc, t.r, t.memptr)) =
    some (0x00#8, 0x0100#16, 0x01#8, 0x0100#16) := by decide
/-- `JP Z,nn not taken` (R401). -/
theorem test_V_J2 :
    sees (bytesAt { neutral with pc := 0x0100#16, f := 0x00#8 } 0x0100#16 [0xCA#8, 0x00#8, 0x20#8])
      (fun t => (t.f, t.pc, t.r, t.memptr)) =
    some (0x00#8, 0x0103#16, 0x01#8, 0x2000#16) := by decide
/-- `JR -2 (self)` (R402). -/
theorem test_V_J3 :
    sees (bytesAt { neutral with pc := 0x0100#16 } 0x0100#16 [0x18#8, 0xFE#8])
      (fun t => (t.f, t.pc, t.r, t.memptr)) =
    some (0x00#8, 0x0100#16, 0x01#8, 0x0100#16) := by decide
/-- `JR +0x7F at 0xFFF0` (R402). -/
theorem test_V_J4 :
    sees (bytesAt { neutral with pc := 0xFFF0#16 } 0xFFF0#16 [0x18#8, 0x7F#8])
      (fun t => (t.f, t.pc, t.r, t.memptr)) =
    some (0x00#8, 0x0071#16, 0x01#8, 0x0071#16) := by decide
/-- `JR NC not taken` (R403). -/
theorem test_V_J5 :
    sees (bytesAt { neutral with pc := 0x0100#16, f := 0x01#8 } 0x0100#16 [0x30#8, 0x10#8])
      (fun t => (t.f, t.pc, t.r)) =
    some (0x01#8, 0x0102#16, 0x01#8) := by decide
/-- `DJNZ with B = 1` (R404). -/
theorem test_V_J6 :
    sees (bytesAt { neutral with pc := 0x0100#16, b := 0x01#8 } 0x0100#16 [0x10#8, 0xFE#8])
      (fun t => (t.f, t.b, t.pc, t.r)) =
    some (0x00#8, 0x00#8, 0x0102#16, 0x01#8) := by decide
/-- `DJNZ with B = 0` (R404). -/
theorem test_V_J7 :
    sees (bytesAt { neutral with pc := 0x0100#16, b := 0x00#8 } 0x0100#16 [0x10#8, 0xFE#8])
      (fun t => (t.f, t.b, t.pc, t.r, t.memptr)) =
    some (0x00#8, 0xFF#8, 0x0100#16, 0x01#8, 0x0100#16) := by decide
/-- `JP (HL)` (R405). -/
theorem test_V_J8 :
    sees (bytesAt { neutral with h := 0x12#8, l := 0x34#8 } 0x0000#16 [0xE9#8])
      (fun t => (t.f, t.pc, t.r)) =
    some (0x00#8, 0x1234#16, 0x01#8) := by decide
/-- `CALL nn` (R407). -/
theorem test_V_J9 :
    sees (bytesAt { neutral with pc := 0x0100#16, sp := 0x8000#16 } 0x0100#16 [0xCD#8, 0x34#8, 0x12#8])
      (fun t => (t.f, t.sp, t.pc, t.r, t.memptr, t.peek 0x7FFE#16, t.peek 0x7FFF#16)) =
    some (0x00#8, 0x7FFE#16, 0x1234#16, 0x01#8, 0x1234#16, 0x03#8, 0x01#8) := by decide
/-- `CALL NZ not taken` (R408). -/
theorem test_V_J10 :
    sees (bytesAt { neutral with pc := 0x0100#16, f := 0x40#8 } 0x0100#16 [0xC4#8, 0x00#8, 0x20#8])
      (fun t => (t.f, t.pc, t.r, t.memptr)) =
    some (0x40#8, 0x0103#16, 0x01#8, 0x2000#16) := by decide
/-- `RET` (R409). -/
theorem test_V_J11 :
    sees (((bytesAt { neutral with sp := 0x7FFE#16 } 0x0000#16 [0xC9#8]).poke 0x7FFE#16 0x03#8).poke 0x7FFF#16 0x01#8)
      (fun t => (t.f, t.sp, t.pc, t.r, t.memptr)) =
    some (0x00#8, 0x8000#16, 0x0103#16, 0x01#8, 0x0103#16) := by decide
/-- `RET PO taken` (R410). -/
theorem test_V_J12 :
    sees (((bytesAt { neutral with
      sp := 0x7FFE#16, f := 0x00#8 } 0x0000#16 [0xE0#8]).poke 0x7FFE#16 0x00#8).poke 0x7FFF#16 0x30#8)
      (fun t => (t.f, t.sp, t.pc, t.r, t.memptr)) =
    some (0x00#8, 0x8000#16, 0x3000#16, 0x01#8, 0x3000#16) := by decide
/-- `RST 38H` (R411). -/
theorem test_V_J13 :
    sees (bytesAt { neutral with pc := 0x0200#16, sp := 0x8000#16 } 0x0200#16 [0xFF#8])
      (fun t => (t.f, t.sp, t.pc, t.r, t.memptr, t.peek 0x7FFE#16, t.peek 0x7FFF#16)) =
    some (0x00#8, 0x7FFE#16, 0x0038#16, 0x01#8, 0x0038#16, 0x01#8, 0x02#8) := by decide
/-- `LDI with BC = 1` (R440). -/
theorem test_V_K1 :
    sees ((bytesAt { neutral with
      h := 0x40#8, l := 0x00#8, d := 0x50#8, e := 0x00#8, b := 0x00#8, c := 0x01#8, a := 0x00#8 } 0x0000#16 [0xED#8,
      0xA0#8]).poke 0x4000#16 0x0A#8)
      (fun t => (t.f, t.c, t.e, t.l, t.pc, t.r, t.peek 0x5000#16)) =
    some (0x28#8, 0x00#8, 0x01#8, 0x01#8, 0x0002#16, 0x02#8, 0x0A#8) := by decide
/-- `LDD` (R441). -/
theorem test_V_K2 :
    sees ((bytesAt { neutral with
      h := 0x40#8, l := 0x00#8, d := 0x50#8, e := 0x00#8, b := 0x00#8, c := 0x02#8, a := 0x10#8,
      f := 0xC1#8 } 0x0000#16 [0xED#8, 0xA8#8]).poke 0x4000#16 0x12#8)
      (fun t => (t.f, t.c, t.d, t.e, t.h, t.l, t.pc, t.r, t.peek 0x5000#16)) =
    some (0xE5#8, 0x01#8, 0x4F#8, 0xFF#8, 0x3F#8, 0xFF#8, 0x0002#16, 0x02#8, 0x12#8) := by decide
/-- `LDIR one iteration, repeats` (R442). -/
theorem test_V_K3 :
    sees ((bytesAt { neutral with
      pc := 0x0100#16, h := 0x40#8, l := 0x00#8, d := 0x50#8, e := 0x00#8, b := 0x00#8, c := 0x02#8 } 0x0100#16 [0xED#8,
      0xB0#8]).poke 0x4000#16 0x01#8)
      (fun t => (t.f, t.c, t.e, t.l, t.pc, t.r, t.memptr, t.peek 0x5000#16)) =
    some (0x04#8, 0x01#8, 0x01#8, 0x01#8, 0x0100#16, 0x02#8, 0x0101#16, 0x01#8) := by decide
/-- `CPI match` (R444). -/
theorem test_V_K5 :
    sees ((bytesAt { neutral with
      a := 0x42#8, h := 0x40#8, l := 0x00#8, b := 0x00#8, c := 0x05#8, memptr := 0x1000#16 } 0x0000#16 [0xED#8,
      0xA1#8]).poke 0x4000#16 0x42#8)
      (fun t => (t.f, t.c, t.l, t.pc, t.r, t.memptr)) =
    some (0x46#8, 0x04#8, 0x01#8, 0x0002#16, 0x02#8, 0x1001#16) := by decide
/-- `CPDR no match, repeats` (R447). -/
theorem test_V_K7 :
    sees ((bytesAt { neutral with
      pc := 0x0100#16, a := 0x42#8, h := 0x40#8, l := 0x00#8, b := 0x00#8, c := 0x05#8 } 0x0100#16 [0xED#8,
      0xB9#8]).poke 0x4000#16 0x00#8)
      (fun t => (t.f, t.c, t.h, t.l, t.pc, t.r, t.memptr)) =
    some (0x26#8, 0x04#8, 0x3F#8, 0xFF#8, 0x0100#16, 0x02#8, 0x0101#16) := by decide
/-- `INI` (R448). -/
theorem test_V_K8 :
    sees (bytesAt { neutral with
      b := 0x02#8, c := 0x10#8, h := 0x60#8, l := 0x00#8, portAnswers := [0x55#8] } 0x0000#16 [0xED#8, 0xA2#8])
      (fun t => (t.f, t.b, t.l, t.pc, t.r, t.memptr, t.peek 0x6000#16)) =
    some (0x00#8, 0x01#8, 0x01#8, 0x0002#16, 0x02#8, 0x0211#16, 0x55#8) := by decide
/-- `INIR B = 1 ends` (R450). -/
theorem test_V_K9 :
    sees (bytesAt { neutral with
      b := 0x01#8, c := 0x10#8, h := 0x60#8, l := 0x00#8, portAnswers := [0x80#8] } 0x0000#16 [0xED#8, 0xB2#8])
      (fun t => (t.f, t.b, t.l, t.pc, t.r, t.memptr, t.peek 0x6000#16)) =
    some (0x42#8, 0x00#8, 0x01#8, 0x0002#16, 0x02#8, 0x0111#16, 0x80#8) := by decide
/-- `OUTI` (R452). -/
theorem test_V_K10 :
    sees ((bytesAt { neutral with
      b := 0x02#8, c := 0x10#8, h := 0x60#8, l := 0x00#8 } 0x0000#16 [0xED#8, 0xA3#8]).poke 0x6000#16 0x99#8)
      (fun t => (t.f, t.b, t.pc, t.memptr, t.bus.contains (.portOut 0x0110#16 0x99#8))) =
    some (0x06#8, 0x01#8, 0x0002#16, 0x0111#16, true) := by decide
/-- `OTDR B = 2 repeats` (R455). -/
theorem test_V_K11 :
    sees ((bytesAt { neutral with
      pc := 0x0100#16, b := 0x02#8, c := 0x10#8, h := 0x60#8, l := 0x00#8 } 0x0100#16 [0xED#8, 0xBB#8]).poke 0x6000#16 0x01#8)
      (fun t => (t.f, t.b, t.pc, t.memptr, t.bus.contains (.portOut 0x0110#16 0x01#8))) =
    some (0x11#8, 0x01#8, 0x0100#16, 0x010F#16, true) := by decide
/-- `IN A,(n)` (R470). -/
theorem test_V_IO1 :
    sees (bytesAt { neutral with a := 0x12#8, portAnswers := [0x56#8] } 0x0000#16 [0xDB#8, 0xFF#8])
      (fun t => (t.a, t.f, t.pc, t.r, t.memptr)) =
    some (0x56#8, 0x00#8, 0x0002#16, 0x01#8, 0x1300#16) := by decide
/-- `IN B,(C) zero` (R471). -/
theorem test_V_IO2 :
    sees (bytesAt { neutral with b := 0x01#8, c := 0x10#8, f := 0x01#8, portAnswers := [0x00#8] } 0x0000#16 [0xED#8, 0x40#8])
      (fun t => (t.f, t.b, t.pc, t.r, t.memptr)) =
    some (0x45#8, 0x00#8, 0x0002#16, 0x02#8, 0x0111#16) := by decide
/-- `IN (C) (ED 70)` (R472). -/
theorem test_V_IO3 :
    sees (bytesAt { neutral with b := 0x00#8, c := 0xFE#8, portAnswers := [0x80#8] } 0x0000#16 [0xED#8, 0x70#8])
      (fun t => (t.f, t.pc, t.r, t.memptr)) =
    some (0x80#8, 0x0002#16, 0x02#8, 0x00FF#16) := by decide
/-- `OUT (n),A` (R473). -/
theorem test_V_IO4 :
    sees (bytesAt { neutral with a := 0x12#8 } 0x0000#16 [0xD3#8, 0xFF#8])
      (fun t => (t.f, t.pc, t.memptr, t.bus.contains (.portOut 0x12FF#16 0x12#8))) =
    some (0x00#8, 0x0002#16, 0x1200#16, true) := by decide
/-- `OUT (C),0 (ED 71)` (R475). -/
theorem test_V_IO5 :
    sees (bytesAt { neutral with b := 0x00#8, c := 0xFE#8 } 0x0000#16 [0xED#8, 0x71#8])
      (fun t => (t.f, t.pc, t.memptr, t.bus.contains (.portOut 0x00FE#16 0x00#8))) =
    some (0x00#8, 0x0002#16, 0x00FF#16, true) := by decide
/-- `NOP` (R490). -/
theorem test_V_X1 :
    sees (bytesAt neutral 0x0000#16 [0x00#8])
      (fun t => (t.f, t.pc, t.r)) =
    some (0x00#8, 0x0001#16, 0x01#8) := by decide
/-- `HALT` (R491). -/
theorem test_V_X2 :
    sees (bytesAt { neutral with pc := 0x0010#16 } 0x0010#16 [0x76#8])
      (fun t => (t.f, t.pc, t.r, t.halted)) =
    some (0x00#8, 0x0010#16, 0x01#8, true) := by decide
/-- `DI` (R492). -/
theorem test_V_X3 :
    sees (bytesAt { neutral with iff1 := true, iff2 := true } 0x0000#16 [0xF3#8])
      (fun t => (t.f, t.pc, t.r, t.iff1, t.iff2)) =
    some (0x00#8, 0x0001#16, 0x01#8, false, false) := by decide
/-- `EI` (R493). -/
theorem test_V_X4 :
    sees (bytesAt neutral 0x0000#16 [0xFB#8])
      (fun t => (t.f, t.pc, t.r, t.iff1, t.iff2, t.pendingEI)) =
    some (0x00#8, 0x0001#16, 0x01#8, true, true, true) := by decide
/-- `IM 2` (R496). -/
theorem test_V_X5 :
    sees (bytesAt neutral 0x0000#16 [0xED#8, 0x5E#8])
      (fun t => (t.f, t.pc, t.r, t.im)) =
    some (0x00#8, 0x0002#16, 0x02#8, .im2) := by decide
/-- `IM 0/1 (ED 6E)` (R494). -/
theorem test_V_X6 :
    sees (bytesAt { neutral with im := .im2 } 0x0000#16 [0xED#8, 0x6E#8])
      (fun t => (t.f, t.pc, t.r, t.im)) =
    some (0x00#8, 0x0002#16, 0x02#8, .im0) := by decide
/-- `LD R,A` (R498). -/
theorem test_V_X7 :
    sees (bytesAt { neutral with a := 0x85#8 } 0x0000#16 [0xED#8, 0x4F#8])
      (fun t => (t.f, t.pc, t.r)) =
    some (0x00#8, 0x0002#16, 0x85#8) := by decide
/-- `LD A,R, R[6:0] wraps` (R500). -/
theorem test_V_X8 :
    sees (bytesAt { neutral with r := 0xFE#8, iff2 := true, f := 0x01#8 } 0x0000#16 [0xED#8, 0x5F#8])
      (fun t => (t.a, t.f, t.pc, t.r)) =
    some (0x80#8, 0x85#8, 0x0002#16, 0x80#8) := by decide
/-- `LD A,I with IFF2 = 0` (R499). -/
theorem test_V_X9 :
    sees (bytesAt { neutral with i := 0x00#8 } 0x0000#16 [0xED#8, 0x57#8])
      (fun t => (t.f, t.pc, t.r)) =
    some (0x40#8, 0x0002#16, 0x02#8) := by decide
/-- `RETN` (R501). -/
theorem test_V_X10 :
    sees (((bytesAt { neutral with
      iff1 := false, iff2 := true, sp := 0x7FFE#16 } 0x0000#16 [0xED#8, 0x45#8]).poke 0x7FFE#16 0x34#8).poke 0x7FFF#16 0x12#8)
      (fun t => (t.f, t.sp, t.pc, t.r, t.memptr, t.iff1)) =
    some (0x00#8, 0x8000#16, 0x1234#16, 0x02#8, 0x1234#16, true) := by decide
/-- `ED 00 (no-operation)` (R503). -/
theorem test_V_X11 :
    sees (bytesAt neutral 0x0000#16 [0xED#8, 0x00#8])
      (fun t => (t.f, t.pc, t.r)) =
    some (0x00#8, 0x0002#16, 0x02#8) := by decide
/-- `DD 00 (ignored prefix)` (R504). -/
theorem test_V_X12 :
    sees (afterPrefix .ix (bytesAt neutral 0x0000#16 [0xDD#8, 0x00#8]))
      (fun t => (t.f, t.pc, t.r)) =
    some (0x00#8, 0x0002#16, 0x02#8) := by decide
/-- `DD EB (prefix ignored)` (R504). -/
theorem test_V_X14 :
    sees (afterPrefix .ix (bytesAt { neutral with
      d := 0x11#8, e := 0x11#8, h := 0x22#8, l := 0x22#8, ix := 0x3333#16 } 0x0000#16 [0xDD#8, 0xEB#8]))
      (fun t => (t.f, t.d, t.e, t.h, t.l, t.pc, t.r)) =
    some (0x00#8, 0x22#8, 0x22#8, 0x11#8, 0x11#8, 0x0002#16, 0x02#8) := by decide

/-! ### Interrupts, halt, reset, breakpoint: the vectors of 95_test_vectors.md section 3 -/

/-- NMI entry. -/
theorem test_V_I1 :
    sees { neutral with pc := 0x1234#16, iff1 := true, iff2 := true, nmiPending := true }
      (fun t => (t.sp, t.pc, t.r, t.memptr, t.peek 0x7FFE#16, t.peek 0x7FFF#16)) =
    some (0x7FFE#16, 0x0066#16, 0x01#8, 0x0066#16, 0x34#8, 0x12#8) := by decide
theorem test_V_I1_flip_flops :
    sees { neutral with pc := 0x1234#16, iff1 := true, iff2 := true, nmiPending := true }
      (fun t => (t.iff1, t.iff2, t.nmiPending)) = some (false, true, false) := by decide

/-- IM 2 entry. -/
def im2Start : State := (({ neutral with
  im := .im2, i := 0x20#8, ackAnswers := [0x04#8], iff1 := true, iff2 := true, intLine := true }.poke
    0x2004#16 0x00#8).poke 0x2005#16 0x30#8)
theorem test_V_I4 :
    sees im2Start (fun t => (t.sp, t.pc, t.r, t.iff1 || t.iff2, t.peek 0x7FFE#16, t.peek 0x7FFF#16)) =
    some (0x7FFE#16, 0x3000#16, 0x01#8, false, 0x00#8, 0x00#8) := by decide

/-- IM 0 with an acknowledge byte. -/
def im0Start (b : Byte) : State :=
  { neutral with pc := 0x0200#16, im := .im0, ackAnswers := [b], iff1 := true, iff2 := true, intLine := true }
theorem test_V_I5 :
    sees (im0Start 0xFF#8) (fun t => (t.sp, t.pc, t.r, t.iff1 || t.iff2, t.peek 0x7FFE#16, t.peek 0x7FFF#16)) =
    some (0x7FFE#16, 0x0038#16, 0x01#8, false, 0x00#8, 0x02#8) := by decide
theorem test_V_I6 : sees (im0Start 0xD7#8) (fun t => (t.pc, t.memptr)) = some (0x0010#16, 0x0010#16) := by decide
theorem test_V_I7 : refuses (im0Start 0xCD#8) = some .im0NonRst := by decide

/-- IM 1 entry, and the same line with IFF1 clear. -/
def im1Start (e : Bool) : State :=
  { neutral with pc := 0x0300#16, im := .im1, iff1 := e, iff2 := true, intLine := true }
theorem test_V_I8 :
    sees (im1Start true) (fun t => (t.sp, t.pc, t.r, t.iff1 || t.iff2, t.peek 0x7FFE#16, t.peek 0x7FFF#16)) =
    some (0x7FFE#16, 0x0038#16, 0x01#8, false, 0x00#8, 0x03#8) := by decide
theorem test_V_I9 : sees (im1Start false) (fun t => (t.kind, t.pc, t.r)) = some (.insn, 0x0301#16, 0x01#8) := by decide

/-- Breakpoint substitution: `C3 00 20` at 0x0000, the hook returns 0x00. -/
def breakpointStart : State :=
  bytesAt { neutral with
    breakpoints := [0], hookAnswers := [0x00#8], params := { Config.Params.default with breakpointHook := .oracle } }
    0x0000#16 [0xC3#8, 0x00#8, 0x20#8]

/-- Under the default hook, the identity of 00_scope.md R8, the JP at a breakpoint runs; the answer list stays. -/
theorem test_hook_identity :
    sees { breakpointStart with params := Config.Params.default } (fun t => (t.pc, t.hookAnswers, t.draws)) =
    some (0x2000#16, [0x00#8], 0) := by decide
theorem test_V_I10 : sees breakpointStart (fun t => (t.kind, t.pc, t.r)) = some (.insn, 0x0001#16, 0x01#8) := by decide

/-- Halted at 0x0010. -/
def haltedStart : State := { neutral with pc := 0x0010#16, halted := true, r := 0x05#8, iff1 := true, iff2 := true }
theorem test_V_I13 :
    sees { haltedStart with nmiPending := true } (fun t => (t.pc, t.halted, t.peek 0x7FFE#16, t.peek 0x7FFF#16)) =
    some (0x0066#16, false, 0x11#8, 0x00#8) := by decide
theorem test_V_I14 : sees haltedStart (fun t => (t.kind, t.pc, t.r)) = some (.halt, 0x0010#16, 0x06#8) := by decide

/-- NMI and INT at the same boundary. -/
theorem test_V_I16 :
    sees { im1Start true with nmiPending := true } (fun t => (t.kind, t.pc, t.iff1, t.iff2)) =
    some (.nmi, 0x0066#16, false, true) := by decide

/-- No interrupt between a prefix and its opcode. -/
theorem test_V_I17 :
    sees (bytesAt { im1Start true with pc := 0x0001#16, pfx := some .ix } 0x0001#16 [0x23#8]) (fun t => (t.kind, t.ix)) =
    some (.insn, 0x0001#16) := by decide

/-- Reset. -/
def resetStart : State := { neutral with
  pc := 0x1234#16, a := 0x12#8, i := 0x55#8, r := 0x33#8, sp := 0x1234#16, iff1 := true, iff2 := true, im := .im2,
  halted := true, resetRequest := true }
theorem test_V_I20 :
    sees resetStart (fun t => (t.a, t.f, t.ix, t.sp, t.pc)) =
      some (0xFF#8, 0xFF#8, 0xFFFF#16, 0xFFFF#16, 0x0000#16) ∧
    sees resetStart (fun t => (t.i, t.r, t.memptr, t.im, t.halted)) =
      some (0x00#8, 0x00#8, 0xFFFF#16, .im0, false) := by decide

/-- Under BLOCK_REPEAT_XY = pc_high a repetition is refused (46_block.md R456). -/
def pcHighStart : State := bytesAt { neutral with
  c := 0x02#8, params := { Config.Params.default with blockRepeatXY := .pcHigh } } 0x0000#16 [0xED#8, 0xB0#8]
theorem test_repeat_pcHigh : refuses pcHighStart = some .blockRepeatPcHigh := by decide

/-- Under LDAIR_PV_QUIRK an interrupt right after LD A,I clears PV; under Q_ON_POP_EX_AF, EX AF,AF' sets Q (D15, D13). -/
theorem test_ldair_quirk :
    sees { im1Start true with
      f := 0x04#8, lastLdAIR := true, params := { Config.Params.default with ldairPvQuirk := true } }
      (fun t => (t.kind, t.f)) = some (.int, 0x00#8) := by decide
theorem test_q_on_ex_af :
    sees (bytesAt { neutral with params := { Config.Params.default with qOnPopExAF := true } } 0x0000#16 [0x08#8])
      (fun t => (t.q, t.lastQ)) = some (true, true) := by decide

/-! ### Witnesses for the hypotheses of the obligations -/

/-- ADD A,B at 0x0000. -/
def addStart : State := bytesAt { neutral with a := 0xFF#8, b := 0x01#8 } 0x0000#16 [0x80#8]

/-- What `State.Inv` asks, of a state in which every clause is a closed fact. -/
theorem inv_of {s : State} (h1 : s.mem.wf = true) (h2 : risingFrom 0 s.breakpoints = true) (h3 : s.pfx = none)
    (h4 : s.pendingEI = false) (h5 : s.iff2 = true) : Inv s :=
  ⟨⟨h1, h2⟩, fun h => by simp [h3] at h, fun h => by simp [h4] at h, fun _ => h5⟩

theorem witness_DecodeOfEncodeIsTheInstruction :
    (Instr.resXd .iy 7#3 0xFF#8 (some .a)).wellFormed = true ∧
    isPrefixStep (Instr.resXd .iy 7#3 0xFF#8 (some .a)) = false := by decide

theorem witness_StepRunsDecodedInstruction :
    addStart.takesReset = false ∧ addStart.takesNmi = false ∧ addStart.takesInt = false ∧ addStart.staysHalted = false ∧
    addStart.hookConsulted = false ∧ addStart.decoded = .addAR .b ∧
    ∃ t, exec (.addAR .b) (addStart.fetched (.addAR .b)) = .next t :=
  ⟨by decide, by decide, by decide, by decide, by decide, by decide, _, rfl⟩

theorem witness_StepRunsDecodedInstruction_refused :
    pcHighStart.takesReset = false ∧ pcHighStart.takesNmi = false ∧ pcHighStart.takesInt = false ∧
    pcHighStart.staysHalted = false ∧ pcHighStart.hookConsulted = false ∧ pcHighStart.decoded = .ldir ∧
    exec .ldir (pcHighStart.fetched .ldir) = .refused .blockRepeatPcHigh :=
  ⟨by decide, by decide, by decide, by decide, by decide, by decide, rfl⟩

theorem witness_BreakpointHook_identity :
    let s := { breakpointStart with params := Config.Params.default }
    s.pfx = none ∧ s.takesInt = false ∧ s.breakpoints.contains s.pc.toNat = true ∧ s.decoded = .jpNn 0x2000#16 ∧
    s.params.breakpointHook = .identity := by decide

theorem witness_StepPriority_reset : resetStart.pfx = none ∧ resetStart.resetRequest = true := by decide

theorem witness_StepPriority_int :
    (im1Start true).pfx = none ∧ (im1Start true).resetRequest = false ∧ (im1Start true).nmiPending = false ∧
    (im1Start true).iff1 = true ∧ (im1Start true).pendingEI = false ∧ (im1Start true).intLine = true := by decide

theorem witness_StepPriority_halted :
    haltedStart.pfx = none ∧ haltedStart.resetRequest = false ∧ haltedStart.nmiPending = false ∧
    ¬(haltedStart.iff1 = true ∧ haltedStart.pendingEI = false ∧ haltedStart.intLine = true) ∧
    haltedStart.halted = true := by decide

theorem witness_StepPriority_instruction :
    neutral.pfx = none ∧ neutral.resetRequest = false ∧ neutral.nmiPending = false ∧
    ¬(neutral.iff1 = true ∧ neutral.pendingEI = false ∧ neutral.intLine = true) ∧ neutral.halted = false := by decide

theorem witness_StepPriority_prefixed : (afterPrefix .ix neutral).pfx ≠ none := by decide

theorem witness_BreakpointHook :
    breakpointStart.pfx = none ∧ breakpointStart.resetRequest = false ∧ breakpointStart.nmiPending = false ∧
    breakpointStart.takesInt = false ∧ breakpointStart.halted = false ∧
    breakpointStart.breakpoints.contains breakpointStart.pc.toNat = true ∧ breakpointStart.decoded = .nop ∧
    breakpointStart.hookAnswer breakpointStart.pc (breakpointStart.peek breakpointStart.pc) = 0x00#8 ∧
    breakpointStart.params.breakpointHook = .oracle ∧ breakpointStart.hookAnswers = [0x00#8] := by decide

theorem witness_EveryInstructionCompletes : neutral.params.blockRepeatXY = .asSingle := by decide

theorem witness_FrameOfRegisters : ∃ t, exec (.addAR .b) addStart = .next t := ⟨_, rfl⟩
theorem witness_FrameOfRegisters_repeating : ∃ t, exec .ldir neutral = .next t := ⟨_, rfl⟩
theorem witness_FrameOfFlags : ∃ t, exec .scf neutral = .next t := ⟨_, rfl⟩
theorem witness_FrameOfMemory : ∃ t, exec (.ldMN 0x55#8) neutral = .next t ∧ 0xFFFF#16 ∉ storesTo (.ldMN 0x55#8) neutral :=
  ⟨_, rfl, by decide⟩
theorem witness_QAndLastQ : ∃ t, exec .scf neutral = .next t := ⟨_, rfl⟩
theorem witness_QAndLastQ_insn : sees addStart (fun t => t.kind) = some .insn := by decide
theorem witness_QAndLastQ_pfx : sees (bytesAt neutral 0x0000#16 [0xDD#8]) (fun t => t.kind) = some .pfx := by decide
theorem witness_QAndLastQ_halt : sees haltedStart (fun t => t.kind) = some .halt := by decide

theorem witness_StepKeepsInv : Inv haltedStart ∧ ∃ t, step haltedStart = .next t :=
  ⟨inv_of (by decide) (by decide) (by decide) (by decide) (by decide), _, rfl⟩

theorem witness_StepKeepsHostInputs : ∃ t, step (im1Start true) = .next t := ⟨_, rfl⟩
theorem witness_BusRequestsOfAStep : ∃ t, step resetStart = .next t ∧ t.kind = .reset := ⟨_, rfl, rfl⟩

theorem witness_RefreshRegisterCounts_reset : sees resetStart (fun t => t.kind) = some .reset := by decide
theorem witness_RefreshRegisterCounts_entry : sees (im1Start true) (fun t => t.kind) = some .int := by decide
theorem witness_RefreshRegisterCounts_insn :
    sees addStart (fun t => t.kind) = some .insn ∧ addStart.decoded ≠ .ldRA := by decide
theorem witness_RefreshRegisterCounts_ldRA :
    sees (bytesAt neutral 0x0000#16 [0xED#8, 0x4F#8]) (fun t => t.kind) = some .insn ∧
    (bytesAt neutral 0x0000#16 [0xED#8, 0x4F#8]).decoded = .ldRA := by decide

/-- EI at 0x0000. -/
def eiStart : State := bytesAt { neutral with iff2 := true } 0x0000#16 [0xFB#8]
theorem witness_EiWindow : Inv eiStart ∧ (∃ t, step eiStart = .next t ∧ t.kind = .insn) ∧ eiStart.decoded = .ei :=
  ⟨inv_of (by decide) (by decide) (by decide) (by decide) (by decide), ⟨_, rfl, rfl⟩, by decide⟩

theorem witness_HaltedEnteredAndLeft_step :
    haltedStart.pfx = none ∧ haltedStart.resetRequest = false ∧ haltedStart.nmiPending = false ∧
    haltedStart.takesInt = false ∧ haltedStart.halted = true := by decide
theorem witness_HaltedEnteredAndLeft_halt : Inv haltedStart ∧ ∃ t, step haltedStart = .next t ∧ t.kind = .halt :=
  ⟨inv_of (by decide) (by decide) (by decide) (by decide) (by decide), _, rfl, rfl⟩
theorem witness_HaltedEnteredAndLeft_int : Inv (im1Start true) ∧ ∃ t, step (im1Start true) = .next t ∧ t.kind = .int :=
  ⟨inv_of (by decide) (by decide) (by decide) (by decide) (by decide), _, rfl, rfl⟩
theorem witness_HaltedEnteredAndLeft_insn : Inv eiStart ∧ ∃ t, step eiStart = .next t ∧ t.kind = .insn :=
  ⟨inv_of (by decide) (by decide) (by decide) (by decide) (by decide), _, rfl, rfl⟩

theorem witness_MemoryReadsWhatWasWritten : Memory.wf [(0, 0x01#8), (65535, 0xFF#8)] = true := by decide

theorem witness_HostOperations_word : ByteReg.a ∉ WordReg.halves .bc ∧ ByteReg.r ∉ WordReg.halves .iy ∧
    WordReg.halves .ix = [.ixh, .ixl] := by decide
theorem witness_HostOperations_flag : ByteReg.a ≠ .f := by decide
theorem witness_HostOperations_bits : neutral.setFlagBit .s true ∈
    [neutral.setByteReg .r 0xFF#8, neutral.setFlagBit .s true] := by simp
theorem witness_HostOperations_breakpoints : risingFrom 0 [0, 65535] = true := by decide
theorem witness_HostOperations_inv : Inv haltedStart :=
  inv_of (by decide) (by decide) (by decide) (by decide) (by decide)
theorem witness_HostOperations : neutral.setWordReg .pc 0x1234#16 ∈
    [neutral.setByteReg .r 0xFF#8, neutral.setWordReg .pc 0x1234#16, neutral.setFlagBit .s true] := by simp

theorem witness_NmiEntry :
    let s := { haltedStart with nmiPending := true }
    s.pfx = none ∧ s.resetRequest = false ∧ s.nmiPending = true := by decide

theorem witness_Im1Entry :
    let s := im1Start true
    s.pfx = none ∧ s.resetRequest = false ∧ s.nmiPending = false ∧ s.iff1 = true ∧ s.pendingEI = false ∧
      s.intLine = true ∧ s.im = .im1 := by decide

theorem witness_Im0Entry_rst :
    let s := im0Start 0xD7#8
    s.pfx = none ∧ s.resetRequest = false ∧ s.nmiPending = false ∧ s.iff1 = true ∧ s.pendingEI = false ∧
      s.intLine = true ∧ s.im = .im0 ∧ s.ackAnswer &&& 0xC7#8 = 0xC7#8 := by decide

theorem witness_Im0Entry_other :
    let s := im0Start 0xCD#8
    s.pfx = none ∧ s.resetRequest = false ∧ s.nmiPending = false ∧ s.iff1 = true ∧ s.pendingEI = false ∧
      s.intLine = true ∧ s.im = .im0 ∧ s.ackAnswer &&& 0xC7#8 ≠ 0xC7#8 := by decide

theorem witness_Im2Entry :
    im2Start.pfx = none ∧ im2Start.resetRequest = false ∧ im2Start.nmiPending = false ∧ im2Start.iff1 = true ∧
    im2Start.pendingEI = false ∧ im2Start.intLine = true ∧ im2Start.im = .im2 := by decide

theorem witness_ResetStep : resetStart.pfx = none ∧ resetStart.resetRequest = true := by decide

theorem witness_RetnUndoesNmiEntry :
    let s := { neutral with iff1 := true, iff2 := true }
    s.mem.wf = true ∧ s.iff1 = s.iff2 ∧ ∃ t, s.serviceNmi = .next t := ⟨by decide, by decide, _, rfl⟩

/-- The same inside an NMI handler, where IFF1 and IFF2 differ, and halted. -/
theorem witness_RetnUndoesNmiEntry_nested :
    let s := { haltedStart with iff1 := false }
    s.mem.wf = true ∧ s.iff1 ≠ s.iff2 ∧ s.halted = true ∧ ∃ t, s.serviceNmi = .next t :=
  ⟨by decide, by decide, by decide, _, rfl⟩

theorem witness_PopUndoesPush :
    let s := { neutral with sp := 0x0001#16 }
    s.mem.wf = true ∧ ∃ t, exec (.pushQq .af) s = .next t := ⟨by decide, _, rfl⟩

theorem witness_DaaMakesDecimalAddition :
    let s := { neutral with a := 0x99#8, f := 0x01#8 }
    s.a.toNat = 16 * 9 + 9 ∧ (Src.value s (.reg .a)).toNat = 16 * 9 + 9 ∧ (Src.value s (.imm 0x99#8)).toNat = 16 * 9 + 9 :=
  by decide

theorem witness_AccumulatorAndDigitRotates :
    (Rot.rr, Instr.rra) ∈ [(Rot.rlc, Instr.rlca), (Rot.rrc, Instr.rrca), (Rot.rl, Instr.rla), (Rot.rr, Instr.rra)] := by
  decide

theorem witness_SetAndResResults : 7 < 8 := by decide
theorem witness_JumpResults : Cond.c.field.toNat < 4 := by decide
theorem witness_ReturnResults : (0#3 : BitVec 3) ≠ 1#3 := by decide
theorem witness_PrefixResults : prefixIgnorable 0xEB#8 = true := by decide

/-- The last and another iteration of a transfer, a compare and a port form, under both values of BLOCK_REPEAT_XY. -/
theorem witness_RepeatingForms_last :
    (∃ t, exec .ldi { neutral with c := 0x01#8 } = .next t ∧ (t.bc != 0#16) = false) ∧
    (∃ t, exec .cpi { neutral with c := 0x02#8 } = .next t ∧ (t.bc != 0#16 && !flagZ t.f) = false) ∧
    (∃ t, exec .outi { neutral with b := 0x01#8 } = .next t ∧ (t.b != 0#8) = false) :=
  ⟨⟨_, rfl, by decide⟩, ⟨_, rfl, by decide⟩, ⟨_, rfl, by decide⟩⟩
theorem witness_RepeatingForms_again :
    neutral.params.blockRepeatXY = .asSingle ∧
    (∃ t, exec .ldi neutral = .next t ∧ (t.bc != 0#16) = true) ∧
    (∃ t, exec .cpi { neutral with a := 0x01#8 } = .next t ∧ (t.bc != 0#16 && !flagZ t.f) = true) ∧
    (∃ t, exec .outi neutral = .next t ∧ (t.b != 0#8) = true) :=
  ⟨by decide, ⟨_, rfl, by decide⟩, ⟨_, rfl, by decide⟩, ⟨_, rfl, by decide⟩⟩
theorem witness_RepeatingForms_pcHigh :
    pcHighStart.params.blockRepeatXY = .pcHigh ∧ ∃ t, exec .ldi pcHighStart = .next t ∧ (t.bc != 0#16) = true :=
  ⟨by decide, _, rfl, by decide⟩

end Sys2Proof.Tests
end

section
/-! SUPPORT. What fetching an instruction does, as one equation, and the two statements about it: O5 and O7. -/

namespace Sys2Proof.Machine

/-! ### The bytes of an instruction -/

/-- The counts of `Laws.BodyLength`, put together over the constructors (30_encoding.md R118, R119). -/
theorem instr_bodyLength (i : Instr) : Laws.BodyLength.Statement i := by
  cases i with
  | cbPrefix op => exact Laws.BodyLength.cbPrefix op
  | edPrefix op b1 b2 => exact Laws.BodyLength.edPrefix op b1 b2
  | ddCb x d op => exact Laws.BodyLength.ddCb x d op
  | edAfterIndex x op b1 b2 => exact Laws.BodyLength.edAfterIndex x op b1 b2
  | prefixIgnored x op b1 b2 => exact Laws.BodyLength.prefixIgnored x op b1 b2
  | _ => exact Laws.BodyLength.of_counts rfl

/-! ### The opcode fetch and the hook -/

/-- The opcode fetch uses up an answer of the hook: it is consulted and is an oracle (log entry 5). -/
def State.drawsHook (s : State) : Bool := s.hookConsulted && s.params.breakpointHook == .oracle

/-- The requests of the opcode fetch in the order they are issued: the M1 fetch, then the hook if it is consulted. -/
def State.openingRequests (s : State) : List BusEvent :=
  [.fetchOpcode s.pc] ++ if s.hookConsulted then [.breakpointHook s.pc (s.peek s.pc)] else []

/-- The opcode fetch and the hook, whole (20_memory.md R72, 60_exceptions.md R620). -/
theorem afterOpening_eq (s : State) :
    s.afterOpening = { s with
      bus := s.openingRequests.reverse ++ s.bus, pc := s.pc + 1#16, r := refreshed s.r 1,
      hookAnswers := if s.drawsHook then s.hookAnswers.tail else s.hookAnswers,
      draws := if s.drawsHook then s.draws + 1 else s.draws } := by
  cases h : s.hookConsulted with
  | false => simp [State.afterOpening, State.openingRequests, State.drawsHook, h, fetchOp_eq]
  | true => simp [State.afterOpening, State.openingRequests, State.drawsHook, h, fetchOp_eq, State.afterHook]

/-- The start of an instruction, whole: at the first byte it clears, inside a prefix chain it keeps (60_exceptions.md R601 step 4). -/
theorem startInstruction_eq (s : State) :
    s.startInstruction = { s with
      q := s.pfx.isSome && s.q, pendingEI := s.pfx.isSome && s.pendingEI,
      lastLdAIR := s.pfx.isSome && s.lastLdAIR } := by
  cases h : s.pfx with
  | none => simp [State.startInstruction, State.clearForInstruction, h]
  | some x =>
    simp only [State.startInstruction, h, Option.isNone_some, Option.isSome_some, Bool.true_and]
    rw [← h]
    rfl

/-- The requests of fetching an instruction, in the order they are issued: the opcode fetch, the further M1 fetches, the operand
reads (20_memory.md R72, R87). -/
def State.fetchRequests (s : State) (i : Instr) : List BusEvent :=
  s.openingRequests ++ requestsFrom .fetchOpcode (s.pc + 1#16) (i.m1Fetches - 1) ++
    requestsFrom .readByte (s.pc + BitVec.ofNat 16 i.m1Fetches) (i.body.length - i.m1Fetches)

/-- Fetching an instruction, whole. -/
theorem fetched_eq (s : State) (i : Instr) :
    s.fetched i = { s with
      bus := (s.fetchRequests i).reverse ++ s.bus, pc := s.pc + BitVec.ofNat 16 i.body.length,
      r := refreshed s.r i.m1Fetches, pfx := none,
      hookAnswers := if s.drawsHook then s.hookAnswers.tail else s.hookAnswers,
      draws := if s.drawsHook then s.draws + 1 else s.draws,
      q := s.pfx.isSome && s.q, pendingEI := s.pfx.isSome && s.pendingEI,
      lastLdAIR := s.pfx.isSome && s.lastLdAIR } := by
  obtain ⟨hm1, hbody, -⟩ := instr_bodyLength i
  have hm : 1 + (i.m1Fetches - 1) = i.m1Fetches := by omega
  have hpcM1 : s.pc + 1#16 + BitVec.ofNat 16 (i.m1Fetches - 1) = s.pc + BitVec.ofNat 16 i.m1Fetches := by
    rw [add_one_add_ofNat, Nat.sub_add_cancel hm1]
  have hpc : s.pc + BitVec.ofNat 16 i.m1Fetches + BitVec.ofNat 16 (i.body.length - i.m1Fetches) =
      s.pc + BitVec.ofNat 16 i.body.length := by
    rw [BitVec.add_assoc, ← BitVec.ofNat_add, Nat.add_sub_cancel' hbody]
  simp only [State.fetched, afterOpening_eq, startInstruction_eq, fetchOps_eq, fetchBytes_eq, State.setPfx,
    Instr.operandReads, refreshed_refreshed, hm, hpcM1, hpc, State.fetchRequests, List.reverse_append, List.append_assoc]

/-! ### The step at a breakpoint -/

/-- When no reset, interrupt or halt step takes the step, it is that of an instruction (60_exceptions.md R606). -/
theorem step_eq_instructionStep {s : State} (hreset : s.takesReset = false) (hnmi : s.takesNmi = false)
    (hint : s.takesInt = false) (hhalt : s.staysHalted = false) : step s = s.instructionStep := by
  simp [step, State.cycle, hreset, hnmi, hint, hhalt]

/-- Where the hook is consulted, the instruction is decoded with its answer as the opcode (60_exceptions.md R620). -/
theorem decoded_of_hookConsulted {s : State} (hpfx : s.pfx = none) (hhook : s.hookConsulted = true) :
    s.decoded = decodeAt none (s.hookAnswer s.pc (s.peek s.pc)) (s.peek (s.pc + 1#16)) (s.peek (s.pc + 2#16))
      (s.peek (s.pc + 3#16)) := by
  simp [State.decoded, State.openingByte, hpfx, hhook]

/-- Running a NOP fetched at an instruction boundary completes: PC passes one byte, R counts one fetch, and the rest is kept but
for what every completed step sets. -/
theorem fetched_nop_completes {s : State} (hpfx : s.pfx = none) :
    ∃ t, onNext (exec .nop (s.fetched .nop)) (fun t => t.finish .nop) = .next t ∧
      t.pc = s.pc + 1#16 ∧ t.r = refreshed s.r 1 ∧ t.f = s.f ∧ t.mem = s.mem ∧
      s.keptBut [.r, .pendingEI, .lastLdAIR]
        { t with hookAnswers := s.hookAnswers, draws := s.draws, kind := s.kind, lastQ := s.lastQ } := by
  refine ⟨(s.fetched .nop).complete, rfl, ?_⟩
  rw [fetched_eq]
  refine ⟨rfl, rfl, rfl, rfl, ?_⟩
  simp [State.keptBut, State.complete, hpfx]

/-! ### The obligations -/

/-- Settles O5: each clause is a field of the one equation for the fetched state. -/
theorem fetchEffect : Obligations.FetchEffect := by
  intro s i hook requests draws
  rw [fetched_eq]
  refine ⟨rfl, rfl, rfl, rfl, rfl, rfl, rfl, rfl, rfl, rfl, ?_⟩
  simp [State.keptBut]

/-- Settles O7: at a breakpoint the step runs what the hook's answer decodes to; a NOP answered in its place completes. -/
theorem breakpointHook : Obligations.BreakpointHook := by
  intro s i hpfx hreset hnmi hint hhalted hbreak hdec
  have hhook : s.hookConsulted = true := by simp only [State.hookConsulted, State.breakpointAt, hpfx, hbreak]; rfl
  have hstep : step s = onNext (exec i (s.fetched i)) fun t => t.finish i := by
    rw [step_eq_instructionStep (by simp [State.takesReset, hreset]) (by simp [State.takesNmi, hnmi]) hint
      (by simp [State.staysHalted, hhalted]), State.instructionStep, decoded_of_hookConsulted hpfx hhook, hdec]
  refine ⟨hstep, by rw [fetched_eq], fun hid => ?_, fun b bs horacle hans => ?_, fun hnop => ?_⟩
  · have hans := hookAnswer_identity hid s.pc (s.peek s.pc)
    exact ⟨hans, hans ▸ hdec⟩
  · have hdraw : s.drawsHook = true := by simp [State.drawsHook, hhook, horacle]
    exact ⟨by rw [hookAnswer_oracle horacle, hans]; rfl, by simp [fetched_eq, hdraw, hans]⟩
  · obtain rfl : i = .nop := by rw [← hdec, hnop]; rfl
    exact hstep ▸ fetched_nop_completes hpfx

end Sys2Proof.Machine
end

section
/-! SUPPORT. Which pieces of state each update keeps: one rule per update, for `State.keptBut`; and the fields that the updates
named by a register field leave alone. -/

namespace Sys2Proof.Machine

variable {ws : List Piece} {s t : State}

@[simp] theorem keptBut_self (ws : List Piece) (s : State) : s.keptBut ws s := by simp [State.keptBut]

/-! ### Updates of what `keptBut` does not speak of: F, Q, PC, memory and the record -/

@[simp] theorem keptBut_emit (ev : BusEvent) : s.keptBut ws (t.emit ev) ↔ s.keptBut ws t := Iff.rfl
@[simp] theorem keptBut_store (a : Word) (v : Byte) : s.keptBut ws (t.store a v) ↔ s.keptBut ws t := Iff.rfl
@[simp] theorem keptBut_writeF (v : Byte) : s.keptBut ws (t.writeF v) ↔ s.keptBut ws t := Iff.rfl
@[simp] theorem keptBut_setPc (v : Word) : s.keptBut ws (t.setPc v) ↔ s.keptBut ws t := Iff.rfl
@[simp] theorem keptBut_markQOnPopExAF : s.keptBut ws t.markQOnPopExAF ↔ s.keptBut ws t := Iff.rfl

/-! ### Updates of one piece -/

@[simp] theorem keptBut_setMemptr (v : Word) (h : .memptr ∈ ws) : s.keptBut ws (t.setMemptr v) ↔ s.keptBut ws t := by
  simp only [State.keptBut, h, true_or]; rfl
@[simp] theorem keptBut_setSp (v : Word) (h : .sp ∈ ws) : s.keptBut ws (t.setSp v) ↔ s.keptBut ws t := by
  simp only [State.keptBut, h, true_or]; rfl
@[simp] theorem keptBut_setAf (v : Word) (h : .a ∈ ws) : s.keptBut ws (t.setAf v) ↔ s.keptBut ws t := by
  simp only [State.keptBut, h, true_or]; rfl
@[simp] theorem keptBut_setAfAlt (v : Word) (h : .afAlt ∈ ws) : s.keptBut ws (t.setAfAlt v) ↔ s.keptBut ws t := by
  simp only [State.keptBut, h, true_or]; rfl
@[simp] theorem keptBut_setGeneralAlt (u v w : Word) (h : .generalAlt ∈ ws) :
    s.keptBut ws (t.setGeneralAlt u v w) ↔ s.keptBut ws t := by
  simp only [State.keptBut, h, true_or]; rfl
@[simp] theorem keptBut_setI (v : Byte) (h : .i ∈ ws) : s.keptBut ws (t.setI v) ↔ s.keptBut ws t := by
  simp only [State.keptBut, h, true_or]; rfl
@[simp] theorem keptBut_setR (v : Byte) (h : .r ∈ ws) : s.keptBut ws (t.setR v) ↔ s.keptBut ws t := by
  simp only [State.keptBut, h, true_or]; rfl
@[simp] theorem keptBut_setIm (v : IntMode) (h : .im ∈ ws) : s.keptBut ws (t.setIm v) ↔ s.keptBut ws t := by
  simp only [State.keptBut, h, true_or]; rfl
@[simp] theorem keptBut_setPendingEI (v : Bool) (h : .pendingEI ∈ ws) :
    s.keptBut ws (t.setPendingEI v) ↔ s.keptBut ws t := by
  simp only [State.keptBut, h, true_or]; rfl
@[simp] theorem keptBut_setHalted (v : Bool) (h : .halted ∈ ws) : s.keptBut ws (t.setHalted v) ↔ s.keptBut ws t := by
  simp only [State.keptBut, h, true_or]; rfl
@[simp] theorem keptBut_setPfx (v : Option Idx) (h : .pfx ∈ ws) : s.keptBut ws (t.setPfx v) ↔ s.keptBut ws t := by
  simp only [State.keptBut, h, true_or]; rfl
@[simp] theorem keptBut_setLastLdAIR (v : Bool) (h : .lastLdAIR ∈ ws) :
    s.keptBut ws (t.setLastLdAIR v) ↔ s.keptBut ws t := by
  simp only [State.keptBut, h, true_or]; rfl
@[simp] theorem keptBut_afterPortIn (p : Word) (h : .ports ∈ ws) : s.keptBut ws (t.afterPortIn p) ↔ s.keptBut ws t := by
  simp only [State.keptBut, h, true_or]; rfl

/-! ### Updates of two pieces -/

@[simp] theorem keptBut_setIffs (v w : Bool) (h1 : .iff1 ∈ ws) (h2 : .iff2 ∈ ws ∨ w = t.iff2) :
    s.keptBut ws (t.setIffs v w) ↔ s.keptBut ws t := by
  rcases h2 with h2 | rfl
  · simp only [State.keptBut, h1, h2, true_or]; rfl
  · simp only [State.keptBut, h1, true_or]; rfl
@[simp] theorem keptBut_setBc (v : Word) (h1 : .b ∈ ws) (h2 : .c ∈ ws) : s.keptBut ws (t.setBc v) ↔ s.keptBut ws t := by
  simp only [State.keptBut, h1, h2, true_or]; rfl
@[simp] theorem keptBut_setDe (v : Word) (h1 : .d ∈ ws) (h2 : .e ∈ ws) : s.keptBut ws (t.setDe v) ↔ s.keptBut ws t := by
  simp only [State.keptBut, h1, h2, true_or]; rfl
@[simp] theorem keptBut_setHl (v : Word) (h1 : .h ∈ ws) (h2 : .l ∈ ws) : s.keptBut ws (t.setHl v) ↔ s.keptBut ws t := by
  simp only [State.keptBut, h1, h2, true_or]; rfl

/-! ### Updates through an operand field -/

@[simp] theorem keptBut_setReg8 (r : Reg8) (v : Byte) (h : Reg8.piece r ∈ ws) :
    s.keptBut ws (t.setReg8 r v) ↔ s.keptBut ws t := by
  cases r <;> simp only [Reg8.piece] at h <;> simp only [State.keptBut, h, true_or] <;> rfl
@[simp] theorem keptBut_setReg8_a (v : Byte) (h : .a ∈ ws) : s.keptBut ws (t.setReg8 .a v) ↔ s.keptBut ws t :=
  keptBut_setReg8 .a v h
@[simp] theorem keptBut_setReg8_b (v : Byte) (h : .b ∈ ws) : s.keptBut ws (t.setReg8 .b v) ↔ s.keptBut ws t :=
  keptBut_setReg8 .b v h
@[simp] theorem keptBut_setIdx (x : Idx) (v : Word) (h : Idx.piece x ∈ ws) :
    s.keptBut ws (t.setIdx x v) ↔ s.keptBut ws t := by
  cases x <;> simp only [Idx.piece] at h <;> simp only [State.keptBut, h, true_or] <;> rfl
@[simp] theorem keptBut_setIdxHalf (x : Idx) (k : Half) (v : Byte) (h : Idx.piece x ∈ ws) :
    s.keptBut ws (t.setIdxHalf x k v) ↔ s.keptBut ws t := by
  cases k <;> exact keptBut_setIdx x _ h
@[simp] theorem keptBut_setRp (p : Rp) (v : Word) (h : Rp.pieces p ⊆ ws) :
    s.keptBut ws (t.setRp p v) ↔ s.keptBut ws t := by
  cases p with
  | bc => exact keptBut_setBc v (h (.head _)) (h (.tail _ (.head _)))
  | de => exact keptBut_setDe v (h (.head _)) (h (.tail _ (.head _)))
  | hl => exact keptBut_setHl v (h (.head _)) (h (.tail _ (.head _)))
  | sp => exact keptBut_setSp v (h (.head _))
@[simp] theorem keptBut_setRegX (x : Idx) (r : RegX) (v : Byte) (h : RegX.piece x r ∈ ws) :
    s.keptBut ws (t.setRegX x r v) ↔ s.keptBut ws t := by
  cases r with
  | xh => exact keptBut_setIdxHalf x .high v h
  | xl => exact keptBut_setIdxHalf x .low v h
  | b => exact keptBut_setReg8 .b v h
  | c => exact keptBut_setReg8 .c v h
  | d => exact keptBut_setReg8 .d v h
  | e => exact keptBut_setReg8 .e v h
  | a => exact keptBut_setReg8 .a v h
@[simp] theorem keptBut_copyTo (r : Option Reg8) (v : Byte) (h : copyPieces r ⊆ ws) :
    s.keptBut ws (t.copyTo r v) ↔ s.keptBut ws t := by
  cases r with
  | none => exact Iff.rfl
  | some r => exact keptBut_setReg8 r v (h (.head _))

/-! ### The fields a frame speaks of, after an update through an operand field and after a push -/

@[simp] theorem setRp_f (s : State) (p : Rp) (v : Word) : (s.setRp p v).f = s.f := by cases p <;> rfl
@[simp] theorem setRp_q (s : State) (p : Rp) (v : Word) : (s.setRp p v).q = s.q := by cases p <;> rfl
@[simp] theorem setRp_pc (s : State) (p : Rp) (v : Word) : (s.setRp p v).pc = s.pc := by cases p <;> rfl
@[simp] theorem setRp_mem (s : State) (p : Rp) (v : Word) : (s.setRp p v).mem = s.mem := by cases p <;> rfl
@[simp] theorem setRegX_f (s : State) (x : Idx) (r : RegX) (v : Byte) : (s.setRegX x r v).f = s.f := by
  cases r <;> cases x <;> rfl
@[simp] theorem setRegX_q (s : State) (x : Idx) (r : RegX) (v : Byte) : (s.setRegX x r v).q = s.q := by
  cases r <;> cases x <;> rfl
@[simp] theorem setRegX_pc (s : State) (x : Idx) (r : RegX) (v : Byte) : (s.setRegX x r v).pc = s.pc := by
  cases r <;> cases x <;> rfl
@[simp] theorem setRegX_mem (s : State) (x : Idx) (r : RegX) (v : Byte) : (s.setRegX x r v).mem = s.mem := by
  cases r <;> cases x <;> rfl
@[simp] theorem copyTo_f (s : State) (r : Option Reg8) (v : Byte) : (s.copyTo r v).f = s.f := by
  cases r <;> simp [State.copyTo]
@[simp] theorem copyTo_q (s : State) (r : Option Reg8) (v : Byte) : (s.copyTo r v).q = s.q := by
  cases r <;> simp [State.copyTo]
@[simp] theorem copyTo_pc (s : State) (r : Option Reg8) (v : Byte) : (s.copyTo r v).pc = s.pc := by
  cases r <;> simp [State.copyTo]
@[simp] theorem copyTo_mem (s : State) (r : Option Reg8) (v : Byte) : (s.copyTo r v).mem = s.mem := by
  cases r <;> simp [State.copyTo]
@[simp] theorem push16_f (s : State) (v : Word) : (s.push16 v).f = s.f := by simp [push16_eq]
@[simp] theorem push16_q (s : State) (v : Word) : (s.push16 v).q = s.q := by simp [push16_eq]
@[simp] theorem push16_pc (s : State) (v : Word) : (s.push16 v).pc = s.pc := by simp [push16_eq]
theorem wf_store {t : State} (h : t.mem.wf = true) (a : Word) (v : Byte) : (t.store a v).mem.wf = true :=
  Memory.wf_write h a v
theorem wf_push16 {t : State} (h : t.mem.wf = true) (v : Word) : (t.push16 v).mem.wf = true := by
  simpa only [push16_eq] using wf_store (wf_store h (t.sp - 1#16) (hi v)) (t.sp - 2#16) (lo v)
@[simp] theorem keptBut_push16 (v : Word) (h : .sp ∈ ws) : s.keptBut ws (t.push16 v) ↔ s.keptBut ws t := by
  rw [push16_eq]
  change s.keptBut ws (((t.store _ _).store _ _).setSp _) ↔ _
  simp [h]

end Sys2Proof.Machine
end

section
/-! SUPPORT. Which bits of the old F each flag computation keeps (10_state.md R29). -/

namespace Sys2Proof.Machine

theorem or_and_byte (a b m : Byte) : (a ||| b) &&& m = (a &&& m) ||| (b &&& m) := by
  ext k
  simp [Bool.and_or_distrib_right]

theorem maskIf_and (c : Bool) (m n : Byte) : maskIf c m &&& n = maskIf c (m &&& n) := by cases c <;> simp [maskIf]

@[simp] theorem maskIf_zero (c : Bool) : maskIf c 0#8 = 0#8 := by cases c <;> rfl

@[simp] theorem incF_and_c (v f : Byte) : incF v f &&& 0x01#8 = f &&& 0x01#8 := by
  simp [incF, sz53nAdd, bitH, bitPV, bitZ, or_and_byte, BitVec.and_assoc, maskIf_and]

@[simp] theorem decF_and_c (v f : Byte) : decF v f &&& 0x01#8 = f &&& 0x01#8 := by
  simp [decF, sz53nSub, sz53nAdd, bitH, bitPV, bitZ, or_and_byte, BitVec.and_assoc, maskIf_and]

@[simp] theorem bitF_and_c (b : BitVec 3) (v xy f : Byte) : bitF b v xy f &&& 0x01#8 = f &&& 0x01#8 := by
  simp [bitF, bitS, or_and_byte, BitVec.and_assoc, maskIf_and]

@[simp] theorem szpKeepCF_and_c (v f : Byte) : szpKeepCF v f &&& 0x01#8 = f &&& 0x01#8 := by
  simp [szpKeepCF, sz53pnAdd, sz53nAdd, bitZ, bitPV, or_and_byte, BitVec.and_assoc, maskIf_and]

@[simp] theorem ldAirF_and_c (v f : Byte) (i : Bool) : ldAirF v f i &&& 0x01#8 = f &&& 0x01#8 := by
  simp [ldAirF, sz53nAdd, bitZ, bitPV, or_and_byte, BitVec.and_assoc, maskIf_and]

@[simp] theorem blockCpF_and_c (a v f : Byte) (bc : Word) : blockCpF a v f bc &&& 0x01#8 = f &&& 0x01#8 := by
  simp [blockCpF, blockXY, bitH, bitY, bitZ, bitPV, or_and_byte, BitVec.and_assoc, maskIf_and]

@[simp] theorem blockLdF_and_szc (a v f : Byte) (bc : Word) : blockLdF a v f bc &&& 0xC1#8 = f &&& 0xC1#8 := by
  simp [blockLdF, blockXY, bitY, bitPV, or_and_byte, BitVec.and_assoc, maskIf_and]

@[simp] theorem add16F_and_szp (a v : Word) (f : Byte) : add16F a v f &&& 0xC4#8 = f &&& 0xC4#8 := by
  simp [add16F, bitH, bitC, or_and_byte, BitVec.and_assoc, maskIf_and]

@[simp] theorem rotAF_and_szp (res : Byte) (c : Bool) (f : Byte) : rotAF res c f &&& 0xC4#8 = f &&& 0xC4#8 := by
  simp [rotAF, bitC, or_and_byte, BitVec.and_assoc, maskIf_and]

@[simp] theorem scfF_and_szp (a f : Byte) (q : Bool) : scfF a f q &&& 0xC4#8 = f &&& 0xC4#8 := by
  simp [scfF, scfXY, or_and_byte, BitVec.and_assoc]

@[simp] theorem ccfF_and_szp (a f : Byte) (q : Bool) : ccfF a f q &&& 0xC4#8 = f &&& 0xC4#8 := by
  simp [ccfF, scfXY, bitH, bitC, or_and_byte, BitVec.and_assoc, maskIf_and]

@[simp] theorem cplF_and_szpc (a f : Byte) : cplF a f &&& 0xC5#8 = f &&& 0xC5#8 := by
  simp [cplF, or_and_byte, BitVec.and_assoc]

@[simp] theorem daaF_and_n (a f : Byte) : daaF a f &&& 0x02#8 = f &&& 0x02#8 := by
  simp [daaF, sz53pnAdd, sz53nAdd, bitZ, bitPV, bitH, bitC, or_and_byte, BitVec.and_assoc, maskIf_and]

end Sys2Proof.Machine
end

section
/-! SUPPORT. What an instruction may change, proved once for each shared operation and put together over the constructors. -/

namespace Sys2Proof.Machine

/-- From `s` to `t` only the pieces `ws`, the flags of the mask `flags`, Q (set when `q` holds, else kept), memory, the record
of requests and, when `jumps` holds, PC have changed; memory is still in canonical form. -/
structure Frame (ws : List Piece) (flags : Byte) (q jumps : Bool) (s t : State) : Prop where
  kept : s.keptBut ws t
  pc : jumps = false → t.pc = s.pc
  flags : t.f &&& ~~~flags = s.f &&& ~~~flags
  q : t.q = (s.q || q)
  mem : s.mem.wf = true → t.mem.wf = true

/-- Where a result is a next state, it is within the frame. -/
def Framed (ws : List Piece) (flags : Byte) (q jumps : Bool) (s : State) (res : Result) : Prop :=
  ∀ t, res = .next t → Frame ws flags q jumps s t

variable {ws : List Piece} {m : Byte} {q j : Bool} {s t u : State}

/-! ### Results -/

theorem framed_next (h : Frame ws m q j s t) : Framed ws m q j s (.next t) := by
  rintro _ ⟨⟩
  exact h

theorem framed_refused (e : Refusal) : Framed ws m q j s (.refused e) := fun _ h => by cases h

theorem framed_ite {c : Prop} [Decidable c] {res res' : Result} (h : Framed ws m q j s res)
    (h' : Framed ws m q j s res') : Framed ws m q j s (if c then res else res') := by
  split
  · exact h
  · exact h'

/-! ### The state the shared operations start from -/

theorem Frame.refl (s : State) : Frame ws m false j s s :=
  ⟨keptBut_self ws s, fun _ => rfl, rfl, by simp, id⟩

theorem Frame.setMemptr (h : Frame ws m q j s t) (v : Word) (hw : .memptr ∈ ws) : Frame ws m q j s (t.setMemptr v) :=
  ⟨(keptBut_setMemptr v hw).2 h.kept, h.pc, h.flags, h.q, h.mem⟩

theorem Frame.emit (h : Frame ws m q j s t) (ev : BusEvent) : Frame ws m q j s (t.emit ev) :=
  ⟨(keptBut_emit ev).2 h.kept, h.pc, h.flags, h.q, h.mem⟩

theorem Frame.setReg8 (h : Frame ws m q j s t) (r : Reg8) (v : Byte) (hw : Reg8.piece r ∈ ws) :
    Frame ws m q j s (t.setReg8 r v) := by
  refine ⟨(keptBut_setReg8 r v hw).2 h.kept, ?_, ?_, ?_, ?_⟩
  · simpa using h.pc
  · simpa using h.flags
  · simpa using h.q
  · simpa using h.mem

/-- A rule that transfers control may set PC. -/
theorem Frame.setPc (h : Frame ws m q true s t) (v : Word) : Frame ws m q true s (t.setPc v) :=
  ⟨(keptBut_setPc v).2 h.kept, nofun, h.flags, h.q, h.mem⟩

theorem Frame.jump (h : Frame ws m q true s t) (v : Word) (hm : .memptr ∈ ws) : Frame ws m q true s (t.jump v) :=
  (h.setPc v).setMemptr v hm

/-! ### The shared operations -/

/-- What obtaining an operand writes: MEMPTR for (IX+d) (30_encoding.md R112). -/
def Src.pieces : Src → List Piece
  | .indexed _ _ => [.memptr]
  | .reg _ | .imm _ | .mem | .half _ _ => []

theorem frame_after (src : Src) (hsrc : Src.pieces src ⊆ ws) : Frame ws m false j s (src.after s) := by
  cases src with
  | indexed x d => exact ((Frame.refl s).setMemptr _ (hsrc (.head _))).emit _
  | mem => exact (Frame.refl s).emit _
  | reg | imm | half => exact Frame.refl s

/-- The arithmetic and logic on A; CP leaves A as it is. -/
theorem framed_accumulate (op : AluOp) (src : Src) (hsrc : Src.pieces src ⊆ ws)
    (ha : .a ∈ ws ∨ ∀ a v f, (op a v f).1 = a) : Framed ws 0xFF#8 true j s (s.accumulate op src) := by
  have hsrc : Frame ws 0xFF#8 false j s (src.after s) := frame_after src hsrc
  rw [accumulate_eq]
  refine framed_next ⟨?_, hsrc.pc, by simp, by simp, hsrc.mem⟩
  rcases ha with ha | ha
  · exact (keptBut_setReg8_a _ ha).2 hsrc.kept
  · rw [ha, ← after_a s src]
    exact hsrc.kept

theorem framed_modifyReg (r : Reg8) (g : Byte → Byte → Byte × Byte) (hr : Reg8.piece r ∈ ws)
    (hg : ∀ v f, (g v f).2 &&& ~~~m = f &&& ~~~m) : Framed ws m true j s (s.modifyReg r g) :=
  framed_next ⟨by simp [hr], by simp, hg _ _, by simp, by simp⟩

theorem framed_modifyHalf (x : Idx) (k : Half) (g : Byte → Byte → Byte × Byte) (hx : Idx.piece x ∈ ws)
    (hg : ∀ v f, (g v f).2 &&& ~~~m = f &&& ~~~m) : Framed ws m true j s (s.modifyHalf x k g) :=
  framed_next ⟨by simp [hx], by simp, hg _ _, by simp, by simp⟩

theorem Frame.modifyMem (h : Frame ws m q j s u) (a : Word) (g : Byte → Byte → Byte × Byte)
    (hg : ∀ v f, (g v f).2 &&& ~~~m = f &&& ~~~m) : Framed ws m true j s (u.modifyMem a g) := by
  refine framed_next ⟨by simp [h.kept], h.pc, (hg _ _).trans h.flags, by simp, fun hs => wf_store (h.mem hs) a _⟩

theorem Frame.changeMem (h : Frame ws m q j s u) (a : Word) (g : Byte → Byte) : Framed ws m q j s (u.changeMem a g) := by
  refine framed_next ⟨by simp [h.kept], h.pc, h.flags, h.q, fun hs => wf_store (h.mem hs) a _⟩

/-- The rotates of (IX+d), with a register copy or without. -/
theorem framed_rotateIndexed (op : RotOp) (x : Idx) (d : Byte) (r : Option Reg8) (hm : .memptr ∈ ws)
    (hr : copyPieces r ⊆ ws) : Framed ws 0xFF#8 true j s (s.rotateIndexed op x d r) :=
  framed_next ⟨by simp [hm, hr], by simp, by simp, by simp, by simp +contextual [-store_mem, wf_store]⟩

/-- SET and RES of (IX+d), with a register copy or without. -/
theorem framed_changeIndexed (g : Byte → Byte) (x : Idx) (d : Byte) (r : Option Reg8) (hm : .memptr ∈ ws)
    (hr : copyPieces r ⊆ ws) : Framed ws m false j s (s.changeIndexed g x d r) :=
  framed_next ⟨by simp [hm, hr], by simp, by simp, by simp, by simp +contextual [-store_mem, wf_store]⟩

theorem framed_rotateA (op : RotOp) (ha : .a ∈ ws) : Framed ws 0x3B#8 true j s (s.rotateA op) :=
  framed_next ⟨by simp [ha], by simp, by simp, by simp, by simp⟩

/-- RET and the returns from an interrupt. -/
theorem Frame.returning (h : Frame ws m q true s u) (hsp : .sp ∈ ws) (hm : .memptr ∈ ws) :
    Framed ws m q true s u.returning := by
  refine framed_next ⟨by simp [State.jump, hsp, hm, h.kept], nofun, ?_, ?_, ?_⟩
  · simpa [State.jump] using h.flags
  · simpa [State.jump] using h.q
  · simpa [State.jump] using h.mem

/-- CALL and RST. -/
theorem framed_call (w : Word) (hsp : .sp ∈ ws) (hm : .memptr ∈ ws) :
    Framed ws m false true s (.next (s.call w)) :=
  framed_next ⟨by simp [State.call, State.jump, hsp, hm], nofun, by simp [State.call, State.jump],
    by simp [State.call, State.jump], by simp +contextual [State.call, State.jump, wf_push16]⟩

/-! ### The block operations: one iteration, and what comes after it -/

variable {k : State → Result} {down : Bool}

theorem framed_blockLd (hws : [.b, .c, .d, .e, .h, .l] ⊆ ws)
    (hk : ∀ u, Frame ws 0x3E#8 true j s u → Framed ws 0x3E#8 true j s (k u)) :
    Framed ws 0x3E#8 true j s (s.blockLd down k) := by
  simp only [List.cons_subset] at hws
  exact hk _ ⟨by simp [hws], by simp, by simp, by simp, by simp +contextual [-store_mem, wf_store]⟩

theorem framed_blockCp (hws : [.b, .c, .h, .l, .memptr] ⊆ ws)
    (hk : ∀ u, Frame ws 0xFE#8 true j s u → Framed ws 0xFE#8 true j s (k u)) :
    Framed ws 0xFE#8 true j s (s.blockCp down k) := by
  simp only [List.cons_subset] at hws
  exact hk _ ⟨by simp [hws], by simp, by simp, by simp, by simp⟩

theorem framed_blockIn (hws : [.b, .h, .l, .memptr, .ports] ⊆ ws)
    (hk : ∀ u, Frame ws 0xFF#8 true j s u → Framed ws 0xFF#8 true j s (k u)) :
    Framed ws 0xFF#8 true j s (s.blockIn down k) := by
  simp only [List.cons_subset] at hws
  exact hk _ ⟨by simp [hws], by simp, by simp, by simp, by simp +contextual [-store_mem, wf_store]⟩

theorem framed_blockOut (hws : [.b, .h, .l, .memptr] ⊆ ws)
    (hk : ∀ u, Frame ws 0xFF#8 true j s u → Framed ws 0xFF#8 true j s (k u)) :
    Framed ws 0xFF#8 true j s (s.blockOut down k) := by
  simp only [List.cons_subset] at hws
  exact hk _ ⟨by simp [State.portWrite, hws], by simp [State.portWrite], by simp, by simp, by simp [State.portWrite]⟩

/-- A repetition moves PC, and MEMPTR where the form sets it (46_block.md R456). -/
theorem Frame.repeatIf (h : Frame ws m q true s u) (again : State → Bool) (setsMemptr : Bool)
    (hm : setsMemptr = true → .memptr ∈ ws) : Framed ws m q true s (State.repeatIf again setsMemptr u) := by
  have hpc := h.setPc (u.pc - 2#16)
  refine framed_ite ?_ (framed_next h)
  unfold State.repeating
  split
  · split
    · exact framed_next (hpc.setMemptr _ (hm ‹_›))
    · exact framed_next hpc
  · exact framed_refused _

end Sys2Proof.Machine
end

section
/-! SUPPORT. Every instruction stays within the frame of its rule; O10 and O11. -/

namespace Sys2Proof.Machine

theorem and_not_all (a b : Byte) : a &&& ~~~0xFF#8 = b &&& ~~~0xFF#8 := by simp

theorem incF_flags (v f : Byte) : incF v f &&& ~~~0xFE#8 = f &&& ~~~0xFE#8 := by simp

theorem decF_flags (v f : Byte) : decF v f &&& ~~~0xFE#8 = f &&& ~~~0xFE#8 := by simp

theorem framed_popQq (p : Rp2) (s : State) :
    Framed (writes (.popQq p)) (flagsChanged (.popQq p)) (setsQ s.params (.popQq p)) (transfersControl (.popQq p)) s
      (exec (.popQq p) s) := by
  cases p <;> refine framed_next ⟨?_, ?_, ?_, ?_, ?_⟩ <;>
    simp [writes, piecesOf, Rp2.pieces, State.setRp2, flagsChanged, flagsOf, loadsF, setsQ,
      transfersControl, Instr.resolve]

/-- Every instruction that is no naming row stays within the frame of its rule. -/
theorem exec_framed {i : Instr} (hi : i.resolve = i) (s : State) :
    Framed (writes i) (flagsChanged i) (setsQ s.params i) (transfersControl i) s (exec i s) := by
  cases i with
  | cbPrefix | edPrefix | ddCb | edAfterIndex | prefixIgnored => exact absurd rfl (coreBody_of_resolve hi)
  | addAR | adcAR | subR | sbcAR | andR | xorR | orR =>
    exact framed_accumulate _ (.reg _) (List.nil_subset _) (.inl (.head _))
  | addAN | adcAN | subN | sbcAN | andN | xorN | orN =>
    exact framed_accumulate _ (.imm _) (List.nil_subset _) (.inl (.head _))
  | addAM | adcAM | subM | sbcAM | andM | xorM | orM =>
    exact framed_accumulate _ .mem (List.nil_subset _) (.inl (.head _))
  | addAXh | adcAXh | subXh | sbcAXh | andXh | xorXh | orXh =>
    exact framed_accumulate _ (.half _ _) (List.nil_subset _) (.inl (.head _))
  | addAXd | adcAXd | subXd | sbcAXd | andXd | xorXd | orXd =>
    exact framed_accumulate _ (.indexed _ _) (List.subset_cons_self _ _) (.inl (.head _))
  | cpR => exact framed_accumulate cp8 (.reg _) (List.nil_subset _) (.inr fun _ _ _ => rfl)
  | cpN => exact framed_accumulate cp8 (.imm _) (List.nil_subset _) (.inr fun _ _ _ => rfl)
  | cpM => exact framed_accumulate cp8 .mem (List.nil_subset _) (.inr fun _ _ _ => rfl)
  | cpXh => exact framed_accumulate cp8 (.half _ _) (List.nil_subset _) (.inr fun _ _ _ => rfl)
  | cpXd => exact framed_accumulate cp8 (.indexed _ _) (List.Subset.refl _) (.inr fun _ _ _ => rfl)
  | incR => exact framed_modifyReg _ inc8 (.head _) incF_flags
  | decR => exact framed_modifyReg _ dec8 (.head _) decF_flags
  | incXh => exact framed_modifyHalf _ _ inc8 (.head _) incF_flags
  | decXh => exact framed_modifyHalf _ _ dec8 (.head _) decF_flags
  | incM => exact (Frame.refl s).modifyMem _ inc8 incF_flags
  | decM => exact (Frame.refl s).modifyMem _ dec8 decF_flags
  | incXd => exact ((Frame.refl s).setMemptr _ (.head _)).modifyMem _ inc8 incF_flags
  | decXd => exact ((Frame.refl s).setMemptr _ (.head _)).modifyMem _ dec8 decF_flags
  | rlcR | rrcR | rlR | rrR | slaR | sraR | sllR | srlR =>
    exact framed_modifyReg _ _ (.head _) fun _ _ => and_not_all _ _
  | rlcM | rrcM | rlM | rrM | slaM | sraM | sllM | srlM =>
    exact (Frame.refl s).modifyMem _ _ fun _ _ => and_not_all _ _
  | setM | resM => exact (Frame.refl s).changeMem _ _
  | rlcXd | rrcXd | rlXd | rrXd | slaXd | sraXd | sllXd | srlXd =>
    exact framed_rotateIndexed _ _ _ _ (.head _) (List.subset_cons_self _ _)
  | setXd | resXd => exact framed_changeIndexed _ _ _ _ (.head _) (List.subset_cons_self _ _)
  | rlca | rrca | rla | rra => exact framed_rotateA _ (.head _)
  | ldi | ldd => exact framed_blockLd (List.Subset.refl _) fun _ => framed_next
  | cpi | cpd => exact framed_blockCp (List.Subset.refl _) fun _ => framed_next
  | ini | ind => exact framed_blockIn (List.Subset.refl _) fun _ => framed_next
  | outi | outd => exact framed_blockOut (List.Subset.refl _) fun _ => framed_next
  | ldir | lddr => exact framed_blockLd (by decide) fun _ h => h.repeatIf _ _ fun _ => by decide
  | cpir | cpdr => exact framed_blockCp (by decide) fun _ h => h.repeatIf _ _ fun _ => by decide
  | inir | indr => exact framed_blockIn (by decide) fun _ h => h.repeatIf _ _ fun _ => by decide
  | otir | otdr => exact framed_blockOut (by decide) fun _ h => h.repeatIf _ _ fun _ => by decide
  | ret => exact (Frame.refl s).returning (.head _) (.tail _ (.head _))
  | retCc => exact framed_ite ((Frame.refl s).returning (.head _) (.tail _ (.head _))) (framed_next (Frame.refl s))
  | popQq p => exact framed_popQq p s
  | djnz =>
    have hb : Frame [.b, .memptr] 0x00#8 false true s (s.setReg8 .b (s.b - 1#8)) := (Frame.refl s).setReg8 .b _ (.head _)
    exact framed_ite (framed_next hb) (framed_next (hb.jump _ (.tail _ (.head _))))
  | jrCc => exact framed_ite (framed_next ((Frame.refl s).jump _ (.head _))) (framed_next (Frame.refl s))
  | jpCcNn =>
    exact framed_ite (framed_next ((Frame.refl s).jump _ (.head _))) (framed_next ((Frame.refl s).setMemptr _ (.head _)))
  | callCcNn =>
    exact framed_ite (framed_call _ (.head _) (.tail _ (.head _)))
      (framed_next ((Frame.refl s).setMemptr _ (.tail _ (.head _))))
  | callNn => exact framed_call _ (.head _) (.tail _ (.head _))
  | rst => exact framed_call _ (.head _) (.tail _ (.head _))
  | _ =>
    refine framed_next ⟨?_, ?_, ?_, ?_, ?_⟩ <;>
      simp +contextual [writes, piecesOf, flagsChanged, loadsF, flagsOf, setsQ, transfersControl, Instr.resolve,
        State.jumpRel, State.jump, State.store16, State.portWrite, State.flagsAdd16, -store_mem, wf_store, wf_push16]

/-- Every instruction stays within the frame of its rule, a naming row as the instruction it names. -/
theorem exec_frame {i : Instr} {s t : State} (h : exec i s = .next t) :
    Frame (writes i) (flagsChanged i) (setsQ s.params i) (transfersControl i.resolve) s t := by
  have hr := resolve_namesRow i
  rw [exec_resolve] at h
  simpa only [writes, flagsChanged, setsQ, hr] using exec_framed hr s t h

/-! ### The obligations about a single instruction -/

/-- Settles O10: the frame of `exec_frame` holds the pieces and PC. -/
theorem frameOfRegisters : Obligations.FrameOfRegisters := by
  intro i s t h
  exact ⟨(exec_frame h).kept, (exec_frame h).pc⟩

/-- Settles O11: the frame of `exec_frame` holds the flags outside the mask. -/
theorem frameOfFlags : Obligations.FrameOfFlags := by
  intro i s t h
  exact (exec_frame h).flags

end Sys2Proof.Machine
end
section
/-! SUPPORT. The control state (R, the flip-flops, the EI delay, Halted, the prefix latch): which instruction changes it,
and how. -/

namespace Sys2Proof.Machine

/-- The control state of the core (10_state.md R35, R36, R38, R39, R46). -/
structure Controls where
  r : Byte
  iff1 : Bool
  iff2 : Bool
  pendingEI : Bool
  halted : Bool
  pfx : Option Idx

def State.controls (s : State) : Controls where
  r := s.r
  iff1 := s.iff1
  iff2 := s.iff2
  pendingEI := s.pendingEI
  halted := s.halted
  pfx := s.pfx

/-- The piece is one of the control state. -/
def Piece.isControl : Piece → Bool
  | .r | .iff1 | .iff2 | .pendingEI | .halted | .pfx => true
  | .a | .b | .c | .d | .e | .h | .l | .afAlt | .generalAlt | .ix | .iy | .sp | .i | .memptr | .im | .lastLdAIR
  | .ports => false

/-- The control state after an instruction (30_encoding.md R117, 48_cpu_control.md R491 to R493, R498, R501, R502). -/
def State.controlsAfter (s : State) : Instr → Controls
  | .halt => { s.controls with halted := true }
  | .di => { s.controls with iff1 := false, iff2 := false }
  | .ei => { s.controls with iff1 := true, iff2 := true, pendingEI := true }
  | .retn _ | .reti => { s.controls with iff1 := s.iff2 }
  | .ldRA => { s.controls with r := s.a }
  | .ddFdPrefix x | .prefixAgain x => { s.controls with pfx := some x }
  | _ => s.controls

/-- Where no control piece is written, the control state is kept. -/
theorem controls_of_keptBut {ws : List Piece} {s t : State} (h : s.keptBut ws t)
    (hws : ws.all (!·.isControl) = true) : t.controls = s.controls := by
  have hout : ∀ k : Piece, k.isControl = true → k ∉ ws := fun k hk hmem => by
    simpa [hk] using List.all_eq_true.1 hws k hmem
  obtain ⟨-, -, -, -, -, -, -, -, -, -, -, -, -, hr, -, hiff1, hiff2, -, hei, hhalted, hpfx, -⟩ := h
  simp only [State.controls, Controls.mk.injEq]
  exact ⟨hr.resolve_left (hout _ rfl), hiff1.resolve_left (hout _ rfl), hiff2.resolve_left (hout _ rfl),
    hei.resolve_left (hout _ rfl), hhalted.resolve_left (hout _ rfl), hpfx.resolve_left (hout _ rfl)⟩

/-- Nothing an instruction does reaches what only the host or the step itself writes (10_state.md R41, R42, R45, R47, R49). -/
theorem hostInputs_of_keptBut {ws : List Piece} {s t : State} (h : s.keptBut ws t) :
    t.nmiPending = s.nmiPending ∧ t.intLine = s.intLine ∧ t.resetRequest = s.resetRequest ∧
      t.breakpoints = s.breakpoints ∧ t.lastQ = s.lastQ ∧ t.params = s.params := by
  obtain ⟨-, -, -, -, -, -, -, -, -, -, -, -, -, -, -, -, -, -, -, -, -, -, -, hnmi, hint, hreset, hbreak, hlastQ, -, -,
    hparams, -⟩ := h
  exact ⟨hnmi, hint, hreset, hbreak, hlastQ, hparams⟩

theorem returnFromInterrupt_controls {s t : State} (h : s.returnFromInterrupt = .next t) :
    t.controls = { s.controls with iff1 := s.iff2 } := by
  rw [State.returnFromInterrupt, returning_eq] at h
  obtain rfl := Host.Outcome.next.inj h
  rfl

theorem exec_controls {i : Instr} (hi : i.resolve = i) {s t : State} (h : exec i s = .next t) :
    t.controls = s.controlsAfter i := by
  have hkept := (exec_frame h).kept
  rw [writes, hi] at hkept
  cases i with
  | cbPrefix | edPrefix | ddCb | edAfterIndex | prefixIgnored => exact absurd rfl (coreBody_of_resolve hi)
  | halt | di | ei | ldRA | ddFdPrefix | prefixAgain =>
    obtain rfl := Host.Outcome.next.inj h
    rfl
  | retn | reti => exact returnFromInterrupt_controls h
  | ldDdNn p | incSs p | decSs p | ldDdMem p | popQq p => cases p <;> exact controls_of_keptBut hkept rfl
  | incR r | decR r | ldRR r | ldRN r | ldRM r | resR _ r | setR _ r | rlcR r | rrcR r | rlR r | rrR r | slaR r | sraR r
  | sllR r | srlR r | ldRXd _ r | inRC r => cases r <;> exact controls_of_keptBut hkept rfl
  | ldIxNn x | incIx x | decIx x | ldXhN x | incXh x | decXh x | ldIxMem x | addIxPp x | popIx x | exSpIx x =>
    cases x <;> exact controls_of_keptBut hkept rfl
  | ldRRX x r => cases x <;> cases r <;> exact controls_of_keptBut hkept rfl
  | rlcXd _ _ r | rrcXd _ _ r | rlXd _ _ r | rrXd _ _ r | slaXd _ _ r | sraXd _ _ r | sllXd _ _ r | srlXd _ _ r
  | resXd _ _ _ r | setXd _ _ _ r =>
    rcases r with _ | r
    · exact controls_of_keptBut hkept rfl
    · cases r <;> exact controls_of_keptBut hkept rfl
  | _ => exact controls_of_keptBut hkept rfl

end Sys2Proof.Machine
end

section
/-! SUPPORT. What a step can do, said once: the five kinds of step (60_exceptions.md R601, R606), each with its next state. -/

namespace Sys2Proof.Machine

/-! ### The decoder gives no naming row -/

theorem decodeIndexed_resolve (x : Idx) (op b1 b2 : Byte) :
    (decodeIndexed0 x op b1 b2).resolve = decodeIndexed0 x op b1 b2 ∧
    (decodeIndexed1 x op b1).resolve = decodeIndexed1 x op b1 ∧
    (decodeIndexed2 x op b1).resolve = decodeIndexed2 x op b1 ∧
    (decodeIndexed3 x op).resolve = decodeIndexed3 x op := by
  refine ⟨?_, ?_, ?_, ?_⟩
  · unfold decodeIndexed0
    split <;> split <;> rfl
  · unfold decodeIndexed1
    split
    · rfl
    · rfl
    · split <;> rfl
  · unfold decodeIndexed2
    split <;> split <;> rfl
  · unfold decodeIndexed3
    split
    · split_ifs <;> rfl
    · rfl
    · rfl

theorem decodeIndex_resolve (x : Idx) (op b1 b2 b3 : Byte) :
    (decodeIndex x op b1 b2 b3).resolve = decodeIndex x op b1 b2 b3 := by
  obtain ⟨h0, h1, h2, h3⟩ := decodeIndexed_resolve x op b1 b2
  unfold decodeIndex
  split
  · exact decodeIndexCb_resolve x b1 b2
  split
  · rfl
  split
  · rfl
  split
  · split
    · exact h0
    · exact h1
    · exact h2
    · exact h3
  · exact decodeBase_resolve op b1 b2 b3

/-- The instruction a step executes is no naming row. -/
theorem decoded_resolve (s : State) : s.decoded.resolve = s.decoded := by
  unfold State.decoded
  cases s.pfx with
  | none => exact decodeBase_resolve _ _ _ _
  | some x => exact decodeIndex_resolve x _ _ _ _

/-! ### The kinds of step -/

/-- The ways a step answers a next state. -/
inductive StepCase (s : State) : State → Prop where
  /-- A reset step (70_reset_and_hazards.md R701). -/
  | reset (h : s.takesReset = true) : StepCase s (s.applyReset.setKind .reset)
  /-- NMI entry (60_exceptions.md R607). -/
  | nmi {u : State} (h : s.takesNmi = true) (hu : s.serviceNmi = .next u) :
    StepCase s (u.setKind .nmi)
  /-- Maskable-interrupt entry (60_exceptions.md R608). -/
  | int {u : State} (h : s.takesInt = true) (hu : s.serviceInt = .next u) : StepCase s (u.setKind .int)
  /-- A halt step (60_exceptions.md R624). -/
  | halt (h : s.staysHalted = true) : StepCase s (s.haltStep.setKind .halt)
  /-- An instruction or a prefix step (60_exceptions.md R601 steps 4 to 6). -/
  | instr {u : State} (h : s.staysHalted = false) (hu : exec s.decoded (s.fetched s.decoded) = .next u) :
    StepCase s (u.finish s.decoded)

theorem onNext_eq_next {res : Result} {g : State → State} {t : State} (h : onNext res g = .next t) :
    ∃ u, res = .next u ∧ t = g u := by
  cases res with
  | next u => exact ⟨u, rfl, (Host.Outcome.next.inj h).symm⟩
  | fault e => cases h
  | refused e => cases h

/-- The inversion of a step. -/
theorem step_cases {s t : State} (h : step s = .next t) : StepCase s t := by
  rw [step, State.cycle] at h
  split at h
  next hreset =>
    obtain rfl := Host.Outcome.next.inj h
    exact .reset hreset
  next hreset =>
  split at h
  next hnmi =>
    obtain ⟨u, hu, rfl⟩ := onNext_eq_next h
    exact .nmi hnmi hu
  next =>
  split at h
  next hint =>
    obtain ⟨u, hu, rfl⟩ := onNext_eq_next h
    exact .int hint hu
  next =>
  split at h
  next hhalt =>
    obtain rfl := Host.Outcome.next.inj h
    exact .halt hhalt
  next hhalt =>
    obtain ⟨u, hu, rfl⟩ := onNext_eq_next h
    exact .instr (Bool.eq_false_iff.2 hhalt) hu

/-! ### The next state of each kind of step -/

theorem haltStep_eq (s : State) : s.haltStep = { s with
    bus := .fetchOpcode s.pc :: s.bus, r := refreshed s.r 1, lastQ := false, lastLdAIR := false } := by
  simp only [State.haltStep, incR_refreshed, State.setLastQ, State.setLastLdAIR, State.emit]

/-- What every interrupt entry does: PC is pushed, R counts one fetch, IFF1, Halted and lastQ are cleared; the prefix latch,
pendingEI and the host's inputs but for the NMI request stay (60_exceptions.md R607 to R611). -/
structure Entry (s u : State) : Prop where
  mem : s.mem.wf = true → u.mem.wf = true
  r : u.r = refreshed s.r 1
  iff1 : u.iff1 = false
  halted : u.halted = false
  lastQ : u.lastQ = false
  pendingEI : u.pendingEI = s.pendingEI
  pfx : u.pfx = s.pfx
  intLine : u.intLine = s.intLine
  resetRequest : u.resetRequest = s.resetRequest
  breakpoints : u.breakpoints = s.breakpoints
  params : u.params = s.params

/-- Pushing PC and going to the handler keeps what an entry did before. -/
theorem Entry.of_keptBut {s v w : State} (hk : v.keptBut [.sp, .memptr] w) (hmem : v.mem.wf = true → w.mem.wf = true)
    (hv : Entry s (v.setLastQ false)) :
    Entry s ((w.setLastQ false).setLastLdAIR false) ∧ w.iff2 = v.iff2 ∧ w.nmiPending = v.nmiPending := by
  have hc := controls_of_keptBut hk rfl
  simp only [State.controls, Controls.mk.injEq] at hc
  obtain ⟨hr, hiff1, hiff2, hei, hhalted, hpfx⟩ := hc
  obtain ⟨hnmi, hint, hreset, hbreak, -, hparams⟩ := hostInputs_of_keptBut hk
  exact ⟨⟨fun h => hmem (hv.mem h), hr.trans hv.r, hiff1.trans hv.iff1, hhalted.trans hv.halted, rfl,
    hei.trans hv.pendingEI, hpfx.trans hv.pfx, hint.trans hv.intLine, hreset.trans hv.resetRequest,
    hbreak.trans hv.breakpoints, hparams.trans hv.params⟩, hiff2, hnmi⟩

/-- Going to a handler at a fixed address. -/
theorem Entry.fixed {s v u : State} {target : Word} (h : v.takeInterrupt (fixedVector target) = .next u)
    (hv : Entry s (v.setLastQ false)) : Entry s u ∧ u.iff2 = v.iff2 ∧ u.nmiPending = v.nmiPending := by
  obtain rfl := Host.Outcome.next.inj h
  exact Entry.of_keptBut (w := (v.push16 v.pc).jump target) (by simp [State.jump])
    (fun hs => by simpa [State.jump] using wf_push16 hs v.pc) hv

/-- Going to the handler whose address stands in the table (60_exceptions.md R611). -/
theorem Entry.table {s v u : State} {table : Word} (h : (v.takeInterrupt fun v' k => v'.loading16 table k) = .next u)
    (hv : Entry s (v.setLastQ false)) : Entry s u ∧ u.iff2 = v.iff2 ∧ u.nmiPending = v.nmiPending := by
  rw [State.takeInterrupt, loading16_eq] at h
  obtain rfl := Host.Outcome.next.inj h
  exact Entry.of_keptBut (by simp [State.jump]) (fun hs => by simpa [State.jump] using wf_push16 hs v.pc) hv

/-- NMI entry keeps IFF2 and consumes the request (60_exceptions.md R607). -/
theorem serviceNmi_entry {s u : State} (h : s.serviceNmi = .next u) :
    Entry s u ∧ u.iff2 = s.iff2 ∧ u.nmiPending = false := by
  simp only [State.serviceNmi, leaveHalt_eq, incR_refreshed] at h
  exact Entry.fixed h ⟨id, rfl, rfl, rfl, rfl, rfl, rfl, rfl, rfl, rfl, rfl⟩

theorem entering_entry (s : State) :
    Entry s (((((s.clearPvOfLdAIR).leaveHalt).incR).setIffs false false).setLastQ false) ∧
      ((((s.clearPvOfLdAIR).leaveHalt).incR).setIffs false false).nmiPending = s.nmiPending := by
  rw [entering_eq]
  exact ⟨⟨id, rfl, rfl, rfl, rfl, rfl, rfl, rfl, rfl, rfl, rfl⟩, rfl⟩

/-- Calling int-ack is part of an entry. -/
theorem Entry.afterIntAck {s v : State} (h : Entry s (v.setLastQ false)) : Entry s (v.afterIntAck.setLastQ false) :=
  ⟨h.mem, h.r, h.iff1, h.halted, rfl, h.pendingEI, h.pfx, h.intLine, h.resetRequest, h.breakpoints, h.params⟩

/-- Maskable-interrupt entry keeps the NMI request, in every mode (60_exceptions.md R608 to R611). -/
theorem serviceInt_entry {s u : State} (h : s.serviceInt = .next u) : Entry s u ∧ u.nmiPending = s.nmiPending := by
  obtain ⟨hv, hnmi⟩ := entering_entry s
  rw [State.serviceInt] at h
  dsimp only at h
  generalize (((s.clearPvOfLdAIR).leaveHalt).incR).setIffs false false = v at h hv hnmi
  split at h
  · split at h
    · obtain ⟨hu, -, hu'⟩ := Entry.fixed h hv.afterIntAck
      exact ⟨hu, hu'.trans hnmi⟩
    · cases h
  · obtain ⟨hu, -, hu'⟩ := Entry.fixed h hv
    exact ⟨hu, hu'.trans hnmi⟩
  · obtain ⟨hu, -, hu'⟩ := Entry.table h hv.afterIntAck
    exact ⟨hu, hu'.trans hnmi⟩

end Sys2Proof.Machine
end

section
/-! SUPPORT. What every step keeps, from the inversion of the step: O13, O14, O16, O18, O19, O20. -/

namespace Sys2Proof.Machine

/-! ### The control state after an instruction, field by field -/

theorem controlsAfter_r (s : State) (i : Instr) : (s.controlsAfter i).r = if i = .ldRA then s.a else s.r := by
  unfold State.controlsAfter
  split <;> simp_all [State.controls]

theorem controlsAfter_pendingEI (s : State) (i : Instr) :
    (s.controlsAfter i).pendingEI = (s.pendingEI || decide (i = .ei)) := by
  unfold State.controlsAfter
  split <;> simp_all [State.controls]

theorem controlsAfter_halted (s : State) (i : Instr) :
    (s.controlsAfter i).halted = (s.halted || decide (i = .halt)) := by
  unfold State.controlsAfter
  split <;> simp_all [State.controls]

/-- Only a prefix step latches a prefix, and it does nothing else. -/
theorem controlsAfter_pfx {s : State} {i : Instr} (hs : s.pfx = none) (h : (s.controlsAfter i).pfx.isSome = true) :
    ∃ x, i = .ddFdPrefix x ∨ i = .prefixAgain x := by
  unfold State.controlsAfter at h
  split at h <;> simp_all [State.controls]

/-- EI sets both flip-flops; whatever writes IFF1 alone makes it IFF2 (48_cpu_control.md R492, R493, R501, R502). -/
theorem controlsAfter_iffs {s : State} (hs : s.iff1 = true → s.iff2 = true) (i : Instr) :
    ((s.controlsAfter i).iff1 = true → (s.controlsAfter i).iff2 = true) ∧
      (i = .ei → (s.controlsAfter i).iff1 = true ∧ (s.controlsAfter i).iff2 = true) := by
  unfold State.controlsAfter
  split <;> simp_all [State.controls]

/-! ### The end of an instruction's step -/

theorem finish_controls (u : State) (i : Instr) : (u.finish i).controls = u.controls := by
  unfold State.finish
  split <;> rfl

@[simp] theorem finish_mem (u : State) (i : Instr) : (u.finish i).mem = u.mem := by
  unfold State.finish
  split <;> rfl

@[simp] theorem finish_q (u : State) (i : Instr) : (u.finish i).q = u.q := by
  unfold State.finish
  split <;> rfl

theorem finish_kind (u : State) (i : Instr) : (u.finish i).kind = if isPrefixStep i then .pfx else .insn := by
  unfold State.finish
  split <;> rfl

theorem finish_lastQ (u : State) (i : Instr) : (u.finish i).lastQ = if isPrefixStep i then u.lastQ else u.q := by
  unfold State.finish
  split <;> rfl

theorem finish_hostInputs (u : State) (i : Instr) :
    (u.finish i).nmiPending = u.nmiPending ∧ (u.finish i).intLine = u.intLine ∧
      (u.finish i).resetRequest = u.resetRequest ∧ (u.finish i).breakpoints = u.breakpoints ∧
      (u.finish i).params = u.params := by
  unfold State.finish
  split <;> exact ⟨rfl, rfl, rfl, rfl, rfl⟩

/-! ### The state an instruction starts from -/

theorem fetched_controls (s : State) (i : Instr) : (s.fetched i).controls =
    { s.controls with r := refreshed s.r i.m1Fetches, pendingEI := s.pfx.isSome && s.pendingEI, pfx := none } := by
  rw [fetched_eq]
  rfl

/-- Under the invariant an instruction starts with the core running, the EI window closed and Q clear. -/
theorem fetched_clean {s : State} (hinv : Inv s) (hrun : s.staysHalted = false) (i : Instr) :
    (s.fetched i).halted = false ∧ (s.fetched i).pendingEI = false ∧ (s.fetched i).q = false := by
  rw [fetched_eq]
  cases hpfx : s.pfx with
  | none =>
    refine ⟨?_, rfl, rfl⟩
    simpa [State.staysHalted, State.atBoundary, hpfx] using hrun
  | some x =>
    obtain ⟨hhalted, hei, hq⟩ := hinv.chainClean (by simp [hpfx])
    exact ⟨hhalted, by simp [hei], by simp [hq]⟩

theorem fetched_kept (s : State) (i : Instr) : (s.fetched i).mem = s.mem ∧ (s.fetched i).breakpoints = s.breakpoints ∧
    (s.fetched i).intLine = s.intLine ∧ (s.fetched i).nmiPending = s.nmiPending ∧
    (s.fetched i).resetRequest = s.resetRequest ∧ (s.fetched i).params = s.params ∧ (s.fetched i).lastQ = s.lastQ ∧
    (s.fetched i).a = s.a := by
  rw [fetched_eq]
  exact ⟨rfl, rfl, rfl, rfl, rfl, rfl, rfl, rfl⟩

/-! ### The next state of an instruction's step -/

section
variable {s u : State} (hu : exec s.decoded (s.fetched s.decoded) = .next u)
include hu

theorem instr_controls : (u.finish s.decoded).controls = (s.fetched s.decoded).controlsAfter s.decoded :=
  (finish_controls _ _).trans (exec_controls (decoded_resolve s) hu)

theorem instr_r : (u.finish s.decoded).r =
    if s.decoded = .ldRA then s.a else refreshed s.r s.decoded.m1Fetches := by
  obtain ⟨-, -, -, -, -, -, -, ha⟩ := fetched_kept s s.decoded
  calc (u.finish s.decoded).r
      = ((s.fetched s.decoded).controlsAfter s.decoded).r := congrArg Controls.r (instr_controls hu)
    _ = if s.decoded = .ldRA then (s.fetched s.decoded).a else (s.fetched s.decoded).controls.r := controlsAfter_r _ _
    _ = _ := by rw [ha, fetched_controls]

theorem instr_hostInputs : (u.finish s.decoded).nmiPending = s.nmiPending ∧ (u.finish s.decoded).intLine = s.intLine ∧
    (u.finish s.decoded).resetRequest = s.resetRequest ∧ (u.finish s.decoded).breakpoints = s.breakpoints ∧
    (u.finish s.decoded).params = s.params := by
  obtain ⟨-, hbreak, hint, hnmi, hreset, hparams, -⟩ := fetched_kept s s.decoded
  obtain ⟨hnmi', hint', hreset', hbreak', -, hparams'⟩ := hostInputs_of_keptBut (exec_frame hu).kept
  obtain ⟨hnmi'', hint'', hreset'', hbreak'', hparams''⟩ := finish_hostInputs u s.decoded
  exact ⟨hnmi''.trans (hnmi'.trans hnmi), hint''.trans (hint'.trans hint), hreset''.trans (hreset'.trans hreset),
    hbreak''.trans (hbreak'.trans hbreak), hparams''.trans (hparams'.trans hparams)⟩

variable (hinv : Inv s) (hrun : s.staysHalted = false)
include hinv hrun

theorem instr_pendingEI : (u.finish s.decoded).pendingEI = decide (s.decoded = .ei) := by
  obtain ⟨-, hei, -⟩ := fetched_clean hinv hrun s.decoded
  calc (u.finish s.decoded).pendingEI
      = ((s.fetched s.decoded).controlsAfter s.decoded).pendingEI := congrArg Controls.pendingEI (instr_controls hu)
    _ = ((s.fetched s.decoded).pendingEI || decide (s.decoded = .ei)) := controlsAfter_pendingEI _ _
    _ = _ := by rw [hei, Bool.false_or]

theorem instr_halted : (u.finish s.decoded).halted = decide (s.decoded = .halt) := by
  obtain ⟨hhalted, -⟩ := fetched_clean hinv hrun s.decoded
  calc (u.finish s.decoded).halted
      = ((s.fetched s.decoded).controlsAfter s.decoded).halted := congrArg Controls.halted (instr_controls hu)
    _ = ((s.fetched s.decoded).halted || decide (s.decoded = .halt)) := controlsAfter_halted _ _
    _ = _ := by rw [hhalted, Bool.false_or]

theorem instr_q : (u.finish s.decoded).q = setsQ s.params s.decoded := by
  obtain ⟨-, -, hq⟩ := fetched_clean hinv hrun s.decoded
  obtain ⟨-, -, -, -, -, hparams, -⟩ := fetched_kept s s.decoded
  rw [finish_q, (exec_frame hu).q, hq, hparams, Bool.false_or]

omit hrun in
theorem instr_iffs :
    ((u.finish s.decoded).iff1 = true → (u.finish s.decoded).iff2 = true) ∧
      (s.decoded = .ei → (u.finish s.decoded).iff1 = true ∧ (u.finish s.decoded).iff2 = true) := by
  have hff : (s.fetched s.decoded).iff1 = true → (s.fetched s.decoded).iff2 = true := by
    rw [fetched_eq]
    exact hinv.flipFlopsOrdered
  have h := controlsAfter_iffs hff s.decoded
  rwa [← instr_controls hu] at h

/-- A prefix latched by the step is latched by a prefix step, which neither halts nor opens the EI window nor writes F. -/
theorem instr_chainClean : ChainClean (u.finish s.decoded) := by
  intro hpfx
  have hnone : (s.fetched s.decoded).pfx = none := by rw [fetched_eq]
  obtain ⟨x, hx⟩ := controlsAfter_pfx (i := s.decoded) hnone (by rw [← instr_controls hu]; exact hpfx)
  rw [instr_halted hu hinv hrun, instr_pendingEI hu hinv hrun, instr_q hu hinv hrun]
  rcases hx with hx | hx <;> rw [hx] <;> exact ⟨rfl, rfl, rfl⟩

theorem inv_instr : Inv (u.finish s.decoded) where
  canonical := by
    obtain ⟨hmem, -⟩ := fetched_kept s s.decoded
    obtain ⟨-, -, -, hbreak, -⟩ := instr_hostInputs hu
    refine ⟨?_, hbreak ▸ hinv.canonical.2⟩
    rw [finish_mem]
    exact (exec_frame hu).mem (hmem ▸ hinv.canonical.1)
  chainClean := instr_chainClean hu hinv hrun
  windowEnabled := fun hei =>
    ((instr_iffs hu hinv).2 (of_decide_eq_true (instr_pendingEI hu hinv hrun ▸ hei))).2
  flipFlopsOrdered := (instr_iffs hu hinv).1

end

/-! ### The next state of the other steps -/

theorem pfx_of_boundary {s : State} {b : Bool} (h : (s.atBoundary && b) = true) : s.pfx = none ∧ b = true := by
  simpa [State.atBoundary] using h

theorem inv_reset {s : State} (hinv : Inv s) : Inv (s.applyReset.setKind .reset) where
  canonical := hinv.canonical
  chainClean := nofun
  windowEnabled := nofun
  flipFlopsOrdered := nofun

/-- After an entry outside a prefix chain, where the EI window stands open only with IFF2 set. -/
theorem inv_entry {s u : State} (hinv : Inv s) (he : Entry s u) (k : StepKind) (hpfx : s.pfx = none)
    (hei : u.pendingEI = true → u.iff2 = true) : Inv (u.setKind k) where
  canonical := ⟨he.mem hinv.canonical.1, he.breakpoints ▸ hinv.canonical.2⟩
  chainClean := fun h => by simp [he.pfx, hpfx] at h
  windowEnabled := hei
  flipFlopsOrdered := fun h => by simp [he.iff1] at h

theorem inv_haltStep {s : State} (hinv : Inv s) : Inv (s.haltStep.setKind .halt) := by
  rw [haltStep_eq]
  exact ⟨hinv.canonical, hinv.chainClean, hinv.windowEnabled, hinv.flipFlopsOrdered⟩

/-! ### The obligations -/

/-- Settles O14: every kind of step keeps the invariant. -/
theorem stepKeepsInv : Obligations.StepKeepsInv := by
  intro s t hinv h
  cases step_cases h with
  | reset => exact inv_reset hinv
  | nmi hnmi hu =>
    obtain ⟨he, hiff2, -⟩ := serviceNmi_entry hu
    exact inv_entry hinv he _ (pfx_of_boundary hnmi).1 (by rw [he.pendingEI, hiff2]; exact hinv.windowEnabled)
  | int hint hu =>
    obtain ⟨he, -⟩ := serviceInt_entry hu
    simp only [State.takesInt, State.atBoundary, Bool.and_eq_true, Option.isNone_iff_eq_none, Bool.not_eq_true'] at hint
    obtain ⟨⟨⟨hpfx, -⟩, hei⟩, -⟩ := hint
    exact inv_entry hinv he _ hpfx (by simp [he.pendingEI, hei])
  | halt => exact inv_haltStep hinv
  | instr hrun hu => exact inv_instr hu hinv hrun

/-- Settles O15: the reset state has an empty memory and breakpoint set and every latch clear. -/
theorem resetMeetsInv : Obligations.ResetMeetsInv := ⟨⟨rfl, rfl⟩, nofun, nofun, nofun⟩

/-- A step that is neither an NMI entry nor a reset consumes no NMI request. -/
theorem nmiPending_kept (b : Bool) : ∀ k : StepKind, k ≠ .nmi → k ≠ .reset → (b && k != .nmi && k != .reset) = b
  | .insn, _, _ | .pfx, _, _ | .halt, _, _ | .int, _, _ => by cases b <;> rfl
  | .nmi, h, _ => (h rfl).elim
  | .reset, _, h => (h rfl).elim

/-- Settles O16: what each kind of step does to the host's inputs. -/
theorem stepKeepsHostInputs : Obligations.StepKeepsHostInputs := by
  intro s t h
  cases step_cases h with
  | reset => simp [State.applyReset, State.reset, State.setKind, bne]
  | nmi _ hu =>
    obtain ⟨he, -, hnmi⟩ := serviceNmi_entry hu
    simp +decide [he.intLine, he.breakpoints, he.params, he.resetRequest, hnmi]
  | int _ hu =>
    obtain ⟨he, hnmi⟩ := serviceInt_entry hu
    simp +decide [he.intLine, he.breakpoints, he.params, he.resetRequest, hnmi, nmiPending_kept]
  | halt => simp +decide [haltStep_eq, nmiPending_kept]
  | instr _ hu =>
    obtain ⟨hnmi, hint, hreset, hbreak, hparams⟩ := instr_hostInputs hu
    rw [hnmi, hint, hreset, hbreak, hparams, finish_kind]
    split <;> simp +decide [nmiPending_kept]

/-- Settles O13: Q is a part of the frame of an instruction; lastQ by the kind of step. -/
theorem qAndLastQ : Obligations.QAndLastQ := by
  refine ⟨fun i s t h => (exec_frame h).q, fun s t h => ?_⟩
  cases step_cases h with
  | reset => simp [State.applyReset, State.reset]
  | nmi _ hu => simp [(serviceNmi_entry hu).1.lastQ]
  | int _ hu => simp [(serviceInt_entry hu).1.lastQ]
  | halt => simp [haltStep_eq]
  | instr _ hu =>
    obtain ⟨-, -, -, -, -, -, hlastQ, -⟩ := fetched_kept s s.decoded
    obtain ⟨-, -, -, -, hlastQ', -⟩ := hostInputs_of_keptBut (exec_frame hu).kept
    rw [finish_kind, finish_lastQ, finish_q, hlastQ', hlastQ]
    split <;> simp

/-- Settles O18: R after each kind of step. -/
theorem refreshRegisterCounts : Obligations.RefreshRegisterCounts := by
  intro s t h
  cases step_cases h with
  | reset => simp [State.applyReset, State.reset]
  | nmi _ hu => simp [(serviceNmi_entry hu).1.r]
  | int _ hu => simp [(serviceInt_entry hu).1.r]
  | halt => simp [haltStep_eq]
  | instr _ hu =>
    rw [instr_r hu, finish_kind]
    split <;> simp +contextual

/-- Settles O19: the window is open exactly after EI, and an open window holds the interrupt off. -/
theorem eiWindow : Obligations.EiWindow := by
  intro s t hinv h hkind
  cases step_cases h with
  | @instr u hrun hu =>
    have hei := instr_pendingEI hu hinv hrun
    refine ⟨by simp [hei], fun hdec => ⟨?_, (instr_iffs hu hinv).2 hdec⟩⟩
    have hopen : (u.finish s.decoded).pendingEI = true := hei.trans (decide_eq_true hdec)
    simp [State.takesInt, hopen]
  | reset | nmi | int | halt => cases hkind

/-- Settles O20: the halt step whole, and Halted after each kind of step. -/
theorem haltedEnteredAndLeft : Obligations.HaltedEnteredAndLeft := by
  refine ⟨fun s hpfx hreset hnmi hint hhalted => ?_, fun s t hinv h => ?_⟩
  · simp [step, State.cycle, State.takesReset, State.takesNmi, State.staysHalted, State.atBoundary, hpfx, hreset, hnmi, hint,
      hhalted, haltStep_eq, State.setKind]
  · cases step_cases h with
    | reset => simp [State.applyReset, State.reset]
    | nmi _ hu => simp [(serviceNmi_entry hu).1.halted]
    | int _ hu => simp [(serviceInt_entry hu).1.halted]
    | halt hhalt => simp [haltStep_eq, (pfx_of_boundary hhalt).2]
    | instr hrun hu =>
      rw [instr_halted hu hinv hrun, finish_kind]
      split <;> simp

end Sys2Proof.Machine
end


section
/-! SUPPORT. Register views (10_state.md R20 to R23), the reset values (R50), and the jumps (45_control.md R400 to R406). -/

namespace Sys2Proof.Machine

/-! ### Reading a view after writing one -/

theorem rp_setRp (s : State) (p p' : Rp) (v : Word) : (s.setRp p v).rp p' = if p' = p then v else s.rp p' := by
  cases p with
  | sp => cases p' <;> rfl
  | bc | de | hl => cases p' <;> simp [State.setRp, State.rp, State.bc, State.de, State.hl]

theorem rp2_setRp2 (s : State) (p p' : Rp2) (v : Word) : (s.setRp2 p v).rp2 p' = if p' = p then v else s.rp2 p' := by
  cases p <;> cases p' <;> simp [State.setRp2, State.rp2, State.bc, State.de, State.hl, State.af]

theorem idxHalf_setIdxHalf (s : State) (x x' : Idx) (h h' : Half) (v : Byte) :
    (s.setIdxHalf x h v).idxHalf x' h' = if x' = x ∧ h' = h then v else s.idxHalf x' h' := by
  by_cases hx : x' = x
  · cases hx
    cases h <;> cases h' <;> simp [State.setIdxHalf, State.idxHalf]
  · have hidx : (s.setIdxHalf x h v).idx x' = s.idx x' := by
      cases h <;> simp [State.setIdxHalf, idx_setIdx, hx]
    cases h' <;> simp [State.idxHalf, hidx, hx]

theorem regX_setRegX (s : State) (x : Idx) (u u' : RegX) (v : Byte) :
    (s.setRegX x u v).regX x u' = if u' = u then v else s.regX x u' := by
  cases u with
  | xh | xl => cases u' <;> simp [State.setRegX, State.regX, idxHalf_setIdxHalf]
  | a | b | c | d | e => cases u' <;> cases x <;> rfl

theorem idx_eq_join_halves (s : State) (x : Idx) : s.idx x = join (s.idxHalf x .high) (s.idxHalf x .low) :=
  (join_hi_lo _).symm

/-- Settles O22: each clause is a rule about one view. -/
theorem registerViews : Obligations.RegisterViews :=
  ⟨join_hi_lo, fun h l => ⟨hi_join h l, lo_join h l, join_toNat h l⟩, rp_setRp, reg8_setReg8, idxHalf_setIdxHalf,
    rp2_setRp2, regX_setRegX, fun s r r' v => ⟨rfl, reg8_setReg8 s r r' v⟩,
    fun _ => ⟨rfl, rfl, rfl, rfl, rfl, rfl, rfl, rfl, rfl, rfl, rfl, rfl, rfl, rfl⟩,
    fun s x => ⟨rfl, rfl, rfl, rfl, idx_eq_join_halves s x, rfl, rfl, rfl, rfl, rfl, rfl, rfl⟩,
    fun _ => ⟨rfl, rfl⟩, fun _ _ => rfl, fun _ _ => ⟨rfl, rfl, rfl⟩⟩

/-- Settles O29: the reset state is a closed term, and each of its fields is read off. -/
theorem resetState : Obligations.ResetState := by
  unfold Obligations.ResetState
  decide

/-! ### Jumps -/

theorem execJpCcNn_eq (cc : Cond) (nn : Word) (s : State) :
    execJpCcNn cc nn s = .next { s with pc := if condHolds cc s.f then nn else s.pc, memptr := nn } := by
  unfold execJpCcNn
  split <;> rfl

theorem execJrCc_eq (cc : Cond) (e : Byte) (s : State) :
    execJrCc cc e s = .next (if condHolds cc s.f then s.jumpRel e else s) := by
  unfold execJrCc
  split <;> rfl

/-- DJNZ falls through exactly when B counts down from 1. -/
theorem execDjnz_eq (e : Byte) (s : State) :
    execDjnz e s = .next (if s.b = 1#8 then { s with b := 0#8 } else ({ s with b := s.b - 1#8 } : State).jumpRel e) := by
  have hzero : s.b - 1#8 = 0#8 ↔ s.b = 1#8 := BitVec.sub_eq_iff_eq_add
  unfold execDjnz
  split_ifs with h1 h2 h2
  · rw [h1]; rfl
  · exact absurd (hzero.mp h1) h2
  · exact absurd (hzero.mpr h2) h1
  · rfl

theorem encode_jpCcNn (cc : Cond) (nn : Word) :
    (Instr.jpCcNn cc nn).encode = [opByte (0xC2 + 8 * cc.field.toNat), lo nn, hi nn] := by cases cc <;> rfl

/-- JR has the four conditions whose field is below 4. -/
theorem encode_jrCc (cc : Cond) (e : Byte) (h : cc.field.toNat < 4) :
    (Instr.jrCc cc e).encode = [opByte (0x20 + 8 * cc.field.toNat), e] := by
  cases cc with
  | nz | z | nc | c => rfl
  | po | pe | p | m => exact absurd h (by decide)

/-- Settles O51: the next state of each jump, its bytes, and the bit of F each condition tests. -/
theorem jumpResults : Obligations.JumpResults := fun s nn cc e _ =>
  ⟨⟨rfl, rfl, rfl, rfl, rfl, rfl, rfl, rfl⟩, add_sext8_toNat s.pc e, rfl, rfl, encode_jpCcNn cc nn,
    execJpCcNn_eq cc nn s, rfl, rfl, encode_jrCc cc e, execJrCc_eq cc e s, rfl, execDjnz_eq e s, rfl, rfl, rfl, rfl⟩

end Sys2Proof.Machine
end

section
/-! SUPPORT. What the host does between steps (60_exceptions.md R623): registers, flag bits, requests and breakpoints. -/

namespace Sys2Proof.Machine

/-! ### Registers -/

theorem getByteReg_setByteReg (s : State) (k k' : ByteReg) (v : Byte) :
    (s.setByteReg k v).getByteReg k' = if k' = k then v else s.getByteReg k' := by
  cases k with
  | ixh | ixl | iyh | iyl => cases k' <;> simp [State.setByteReg, State.getByteReg, idxHalf_setIdxHalf]
  | _ => cases k' <;> rfl

theorem getWordReg_setWordReg (s : State) (j j' : WordReg) (w : Word) :
    (s.setWordReg j w).getWordReg j' = if j' = j then w else s.getWordReg j' := by
  cases j with
  | ix | iy | sp | pc => cases j' <;> rfl
  | _ => cases j' <;> simp [State.setWordReg, State.getWordReg, State.af, State.bc, State.de, State.hl]

/-- A pair is its two halves: set as two sets of bytes do, read as two gets of bytes do (10_state.md R21). -/
theorem setWordReg_of_halves (s : State) (j : WordReg) (kh kl : ByteReg) (w : Word) (hj : j.halves = [kh, kl]) :
    s.setWordReg j w = (s.setByteReg kh (hi w)).setByteReg kl (lo w) ∧
    s.getWordReg j = join (s.getByteReg kh) (s.getByteReg kl) := by
  cases j with
  | sp | pc => cases hj
  | ix | iy =>
    cases hj
    simp [State.setWordReg, State.setByteReg, State.setIdxHalf, State.getWordReg, State.getByteReg, State.idxHalf,
      State.setIdx, State.idx]
  | _ => cases hj; exact ⟨rfl, rfl⟩

theorem getByteReg_setWordReg (s : State) (j : WordReg) (k : ByteReg) (w : Word) (hk : k ∉ j.halves) :
    (s.setWordReg j w).getByteReg k = s.getByteReg k := by
  cases j with
  | sp | pc => cases k <;> rfl
  | _ =>
    simp only [WordReg.halves, List.mem_cons, List.not_mem_nil, or_false, not_or] at hk
    obtain ⟨hkh, hkl⟩ := hk
    rw [(setWordReg_of_halves s _ _ _ w rfl).1, getByteReg_setByteReg, getByteReg_setByteReg, if_neg hkl, if_neg hkh]

/-! ### Flag bits (10_state.md R27) -/

/-- The number of a flag's bit in F. -/
def FlagBit.index : FlagBit → Nat
  | .c => 0 | .n => 1 | .pv => 2 | .x => 3 | .h => 4 | .y => 5 | .z => 6 | .s => 7

theorem FlagBit.mask_eq (g : FlagBit) : g.mask = BitVec.twoPow 8 g.index := by cases g <;> rfl

theorem FlagBit.mask_ne_zero (g : FlagBit) : g.mask ≠ 0#8 := by cases g <;> decide

theorem FlagBit.index_lt (g : FlagBit) : g.index < 8 := by cases g <;> decide

theorem FlagBit.index_inj (g g' : FlagBit) : g'.index = g.index ↔ g' = g := by cases g <;> cases g' <;> decide

theorem getFlagBit_eq (s : State) (g : FlagBit) : s.getFlagBit g = s.f.getLsbD g.index := by
  rw [State.getFlagBit, FlagBit.mask_eq, BitVec.and_twoPow, ← FlagBit.mask_eq]
  cases s.f.getLsbD g.index with
  | true => simpa using g.mask_ne_zero
  | false => rfl

theorem getFlagBit_setFlagBit (s : State) (g g' : FlagBit) (b : Bool) :
    (s.setFlagBit g b).getFlagBit g' = if g' = g then b else s.getFlagBit g' := by
  simp only [getFlagBit_eq, ← FlagBit.index_inj g g', State.setFlagBit, FlagBit.mask_eq, BitVec.getLsbD_or,
    BitVec.getLsbD_and, BitVec.getLsbD_not, BitVec.getLsbD_twoPow, maskIf_getLsbD, g'.index_lt]
  by_cases h : g'.index = g.index
  · simp [h, g.index_lt]
  · simp [h, Ne.symm h]

theorem getByteReg_setFlagBit (s : State) (k : ByteReg) (g : FlagBit) (b : Bool) (hk : k ≠ .f) :
    (s.setFlagBit g b).getByteReg k = s.getByteReg k := by
  cases k with
  | f => exact absurd rfl hk
  | _ => rfl

/-! ### What a set keeps -/

/-- The registers that the host's sets can write (F and PC are not pieces). -/
def hostRegisters : List Piece := [.a, .b, .c, .d, .e, .h, .l, .afAlt, .generalAlt, .ix, .iy, .sp, .i, .r]

/-- What no set of the host touches. -/
def State.SetOnly (s t : State) : Prop := s.keptBut hostRegisters t ∧ t.q = s.q ∧ t.mem = s.mem ∧ t.bus = s.bus

theorem setByteReg_setOnly (s : State) (k : ByteReg) (v : Byte) : s.SetOnly (s.setByteReg k v) := by
  cases k <;> simp [State.SetOnly, State.setByteReg, State.keptBut, hostRegisters]

theorem setWordReg_setOnly (s : State) (j : WordReg) (w : Word) : s.SetOnly (s.setWordReg j w) := by
  cases j <;> simp [State.SetOnly, State.setWordReg, State.keptBut, hostRegisters]

theorem setFlagBit_setOnly (s : State) (g : FlagBit) (b : Bool) : s.SetOnly (s.setFlagBit g b) := by
  simp [State.SetOnly, State.setFlagBit, State.keptBut, hostRegisters]

theorem setByteReg_sp_pc (s : State) (k : ByteReg) (v : Byte) :
    (s.setByteReg k v).sp = s.sp ∧ (s.setByteReg k v).pc = s.pc := by
  cases k <;> simp [State.setByteReg]

/-! ### Breakpoints (10_state.md R47) -/

theorem breakpointAt_enableBreakpoint (s : State) (a x : Word) :
    (s.enableBreakpoint a).breakpointAt x = if x = a then true else s.breakpointAt x := by
  rw [Bool.eq_iff_iff]
  by_cases h : x = a <;>
    simp [State.breakpointAt, State.enableBreakpoint, mem_enableAddr, BitVec.toNat_inj, h]

theorem breakpointAt_disableBreakpoint (s : State) (a x : Word) :
    (s.disableBreakpoint a).breakpointAt x = if x = a then false else s.breakpointAt x := by
  rw [Bool.eq_iff_iff]
  by_cases h : x = a <;>
    simp [State.breakpointAt, State.disableBreakpoint, mem_disableAddr, BitVec.toNat_inj, h]

theorem rising_enableBreakpoint {s : State} (a : Word) (h : risingFrom 0 s.breakpoints = true) :
    risingFrom 0 (s.enableBreakpoint a).breakpoints = true :=
  risingFrom_enableAddr a.toNat a.isLt h (Nat.zero_le _)

theorem rising_disableBreakpoint {s : State} (a : Word) (h : risingFrom 0 s.breakpoints = true) :
    risingFrom 0 (s.disableBreakpoint a).breakpoints = true :=
  risingFrom_disableAddr a.toNat h

/-! ### The invariant -/

theorem inv_of_setOnly {s t : State} (hinv : Inv s) (h : s.SetOnly t) : Inv t := by
  obtain ⟨hkept, hq, hmem, -⟩ := h
  have hbreak := (hostInputs_of_keptBut hkept).2.2.2.1
  simp only [State.keptBut, hostRegisters, List.mem_cons, List.not_mem_nil, reduceCtorEq, or_false, false_or] at hkept
  obtain ⟨-, -, -, -, -, -, -, -, -, -, -, -, -, -, -, hiff1, hiff2, -, hei, hhalted, hpfx, -⟩ := hkept
  obtain ⟨⟨hwf, hrising⟩, hchain, hwindow, hiffs⟩ := hinv
  refine ⟨⟨?_, ?_⟩, ?_, ?_, ?_⟩
  · rw [hmem]; exact hwf
  · rw [hbreak]; exact hrising
  · rw [ChainClean, hpfx, hhalted, hei, hq]; exact hchain
  · rw [WindowEnabled, hei, hiff2]; exact hwindow
  · rw [FlipFlopsOrdered, hiff1, hiff2]; exact hiffs

/-- The invariant speaks of none of the host's requests. -/
theorem inv_of_request {s : State} (hinv : Inv s) (level : Bool) :
    Inv s.assertNmi ∧ Inv (s.setIntLine level) ∧ Inv s.requestReset := by
  obtain ⟨hcanonical, hchain, hwindow, hiffs⟩ := hinv
  exact ⟨⟨hcanonical, hchain, hwindow, hiffs⟩, ⟨hcanonical, hchain, hwindow, hiffs⟩,
    ⟨hcanonical, hchain, hwindow, hiffs⟩⟩

theorem inv_of_breakpoint {s : State} (hinv : Inv s) (a : Word) :
    Inv (s.enableBreakpoint a) ∧ Inv (s.disableBreakpoint a) := by
  obtain ⟨⟨hwf, hrising⟩, hchain, hwindow, hiffs⟩ := hinv
  exact ⟨⟨⟨hwf, rising_enableBreakpoint a hrising⟩, hchain, hwindow, hiffs⟩,
    ⟨⟨hwf, rising_disableBreakpoint a hrising⟩, hchain, hwindow, hiffs⟩⟩

/-- Settles O23: each clause is a rule about one host operation. -/
theorem hostOperations : Obligations.HostOperations := by
  refine ⟨getByteReg_setByteReg, getWordReg_setWordReg, getByteReg_setWordReg, setWordReg_of_halves,
    getFlagBit_setFlagBit, ?flags, getByteReg_setFlagBit, ?spPc, ?sets, fun _ _ _ => ⟨rfl, rfl, rfl, rfl, rfl⟩,
    fun s a x => ⟨breakpointAt_enableBreakpoint s a x, breakpointAt_disableBreakpoint s a x⟩,
    fun _ a h => ⟨rising_enableBreakpoint a h, rising_disableBreakpoint a h⟩, ?inv⟩
  case flags => exact fun s => ⟨getFlagBit_eq s .c, getFlagBit_eq s .n, getFlagBit_eq s .pv, getFlagBit_eq s .x,
    getFlagBit_eq s .h, getFlagBit_eq s .y, getFlagBit_eq s .z, getFlagBit_eq s .s⟩
  case spPc =>
    intro s k g v b
    simpa using ⟨setByteReg_sp_pc s k v, rfl, rfl⟩
  case sets =>
    intro s k j g v w b
    have hsets : ∀ t ∈ [s.setByteReg k v, s.setWordReg j w, s.setFlagBit g b], s.SetOnly t := by
      simp [setByteReg_setOnly, setWordReg_setOnly, setFlagBit_setOnly]
    exact hsets
  case inv =>
    intro s k j g v w a b level hinv
    obtain ⟨hnmi, hint, hreset⟩ := inv_of_request hinv level
    obtain ⟨henable, hdisable⟩ := inv_of_breakpoint hinv a
    simp [hnmi, hint, hreset, henable, hdisable, inv_of_setOnly hinv (setByteReg_setOnly s k v),
      inv_of_setOnly hinv (setWordReg_setOnly s j w), inv_of_setOnly hinv (setFlagBit_setOnly s g b)]

end Sys2Proof.Machine
end

section
/-! SUPPORT. Memory as a function of its addresses (20_memory.md R84), and the stack as a place to keep a word (R74); O21 and
O37. -/

namespace Sys2Proof.Machine

/-! ### Canonical memories that read alike -/

theorem Memory.wfFrom_cons {n k : Nat} {v : Byte} {m : Memory} :
    Memory.wfFrom n ((k, v) :: m) = true ↔
      n ≤ k ∧ k < 65536 ∧ v ≠ Config.unlistedByte ∧ Memory.wfFrom (k + 1) m = true := by
  simp [Memory.wfFrom, and_assoc]

theorem Memory.read_head (k : Nat) (v : Byte) (m : Memory) : Memory.read ((k, v) :: m) k = v := if_pos rfl

/-- A canonical memory that reads as another one lists no address below all of the other's. -/
theorem Memory.head_not_below {n k : Nat} {v : Byte} {m m' : Memory} (h : Memory.wfFrom n ((k, v) :: m) = true)
    (h' : Memory.wfFrom (k + 1) m' = true) : ¬ ∀ x, Memory.read ((k, v) :: m) x = m'.read x := by
  intro hread
  have hk := hread k
  rw [Memory.read_head, Memory.read_below h' (Nat.lt_succ_self k)] at hk
  exact (Memory.wfFrom_cons.1 h).2.2.1 hk

/-- Without their common first cell, two canonical memories still read alike. -/
theorem Memory.read_tail_eq {k : Nat} {v w : Byte} {m m' : Memory} (hm : Memory.wfFrom (k + 1) m = true)
    (hm' : Memory.wfFrom (k + 1) m' = true) (hread : ∀ x, Memory.read ((k, v) :: m) x = Memory.read ((k, w) :: m') x)
    (x : Nat) : m.read x = m'.read x := by
  by_cases hx : k = x
  · subst hx
    rw [Memory.read_below hm (Nat.lt_succ_self k), Memory.read_below hm' (Nat.lt_succ_self k)]
  · simpa only [Memory.read_cons, if_neg hx] using hread x

/-- The canonical form is unique: what a memory reads determines its list. -/
theorem Memory.ext_from {m m' : Memory} : ∀ {n n' : Nat}, Memory.wfFrom n m = true → Memory.wfFrom n' m' = true →
    (∀ x, m.read x = m'.read x) → m = m' := by
  induction m generalizing m' with
  | nil =>
    intro n n' _ h' hread
    cases m' with
    | nil => rfl
    | cons e m' => exact absurd (fun x => (hread x).symm) (Memory.head_not_below h' rfl)
  | cons e m ih =>
    obtain ⟨k, v⟩ := e
    intro n n' h h' hread
    cases m' with
    | nil => exact absurd hread (Memory.head_not_below h rfl)
    | cons e' m' =>
      obtain ⟨k', v'⟩ := e'
      obtain ⟨-, hk, hv, hm⟩ := Memory.wfFrom_cons.1 h
      obtain ⟨-, hk', hv', hm'⟩ := Memory.wfFrom_cons.1 h'
      rcases Nat.lt_trichotomy k k' with hlt | rfl | hlt
      · exact absurd hread (Memory.head_not_below h (Memory.wfFrom_cons.2 ⟨hlt, hk', hv', hm'⟩))
      · have hhead : v = v' := by simpa only [Memory.read_head] using hread k
        rw [hhead, ih hm hm' (Memory.read_tail_eq hm hm' hread)]
      · exact absurd (fun x => (hread x).symm) (Memory.head_not_below h' (Memory.wfFrom_cons.2 ⟨hlt, hk, hv, hm⟩))

/-- Settles O21: reading after a write, the canonical form after a write, and its uniqueness. -/
theorem memoryReadsWhatWasWritten : Obligations.MemoryReadsWhatWasWritten :=
  ⟨fun _ x y v h => Memory.read_write h x y v, fun _ x v h => Memory.wf_write h x v, fun _ _ => Memory.ext_from⟩

/-! ### The word at the top of the stack -/

theorem peek_store {s : State} (h : s.mem.wf = true) (x y : Word) (v : Byte) :
    (s.store x v).peek y = if y = x then v else s.peek y := peek_poke (s := s.emit (.writeByte x v)) h x y v

@[simp] theorem push16_sp (s : State) (v : Word) : (s.push16 v).sp = s.sp - 2#16 := by rw [push16_eq]

/-- A push leaves the word at SP, low byte first (20_memory.md R74). -/
theorem peek_push16 {s : State} (h : s.mem.wf = true) (v : Word) :
    (s.push16 v).peek (s.sp - 2#16) = lo v ∧ (s.push16 v).peek (s.sp - 1#16) = hi v := by
  have hpeek : ∀ x, (s.push16 v).peek x =
      if x = s.sp - 2#16 then lo v else if x = s.sp - 1#16 then hi v else s.peek x := fun x => by
    rw [← peek_store h, ← peek_store (wf_store h _ _), push16_eq]
    rfl
  exact ⟨by rw [hpeek, if_pos rfl], by rw [hpeek, if_neg (sub_one_ne_sub_two s.sp), if_pos rfl]⟩

/-- The word that Pop16 reads right after Push16 is the one pushed. -/
theorem topWord_push16 {s : State} (h : s.mem.wf = true) (v : Word) :
    join ((s.push16 v).peek ((s.push16 v).sp + 1#16)) ((s.push16 v).peek (s.push16 v).sp) = v := by
  obtain ⟨hlo, hhi⟩ := peek_push16 h v
  rw [push16_sp, sub_two_add_one, hlo, hhi, join_hi_lo]

/-- POP qq, whole (41_load16_stack_exchange.md R252). -/
theorem execPopQq_eq (p : Rp2) (s : State) :
    execPopQq p s = .next { ({ (s.emit (.readByte s.sp)).emit (.readByte (s.sp + 1#16)) with sp := s.sp + 2#16 } :
        State).setRp2 p (join (s.peek (s.sp + 1#16)) (s.peek s.sp)) with
      q := s.q || (p == .af && s.params.qOnPopExAF) } := by
  have hq : ∀ u : State, u = { u with q := u.q || false } := fun u => by rw [Bool.or_false]
  rw [execPopQq, popping_eq]
  cases p with
  | af => rfl
  | bc | de | hl => exact congrArg Host.Outcome.next (hq _)

/-- Settles O37: POP reads back the word that PUSH left at SP, and SP moves down by 2 and up by 2. -/
theorem popUndoesPush : Obligations.PopUndoesPush := by
  intro s t p hwf hpush
  obtain rfl : s.push16 (s.rp2 p) = t := Host.Outcome.next.inj hpush
  refine ⟨_, execPopQq_eq p _, ?_, ?_, ?_⟩
  · rw [topWord_push16 hwf]
    exact (rp2_setRp2 _ p p _).trans (if_pos rfl)
  · cases p <;> simp [State.setRp2]
  · cases p <;> rfl

end Sys2Proof.Machine
end

section
/-! SUPPORT. What an instruction stores to and which requests it issues: one rule per access, put together over the
constructors; O12. -/

namespace Sys2Proof.Machine

/-- From `s` to `t` at most the bytes at `addrs` have changed, and requests have been added in front of the record, none of them
instruction-complete. -/
structure Access (addrs : List Word) (s t : State) : Prop where
  peek : ∀ x, x ∉ addrs → t.peek x = s.peek x
  grows : s.bus <:+ t.bus
  completes : t.bus.count .instructionComplete = s.bus.count .instructionComplete

/-- Where a result is a next state, only these accesses have led to it. -/
def Accesses (addrs : List Word) (s : State) (res : Result) : Prop := ∀ t, res = .next t → Access addrs s t

variable {as : List Word} {s t u : State} {w : Word}

/-! ### Results -/

theorem accesses_next (h : Access as s t) : Accesses as s (.next t) := by
  rintro _ ⟨⟩
  exact h

theorem accesses_refused (e : Refusal) : Accesses as s (.refused e) := fun _ h => by cases h

theorem accesses_ite {c : Prop} [Decidable c] {res res' : Result} (h : Accesses as s res) (h' : Accesses as s res') :
    Accesses as s (if c then res else res') := by
  split
  · exact h
  · exact h'

/-! ### The record after an update through an operand field -/

@[simp] theorem setRp_bus (s : State) (p : Rp) (v : Word) : (s.setRp p v).bus = s.bus := by cases p <;> rfl
@[simp] theorem setRp2_mem (s : State) (p : Rp2) (v : Word) : (s.setRp2 p v).mem = s.mem := by cases p <;> rfl
@[simp] theorem setRp2_bus (s : State) (p : Rp2) (v : Word) : (s.setRp2 p v).bus = s.bus := by cases p <;> rfl
@[simp] theorem setRegX_bus (s : State) (x : Idx) (r : RegX) (v : Byte) : (s.setRegX x r v).bus = s.bus := by
  cases r <;> cases x <;> rfl
@[simp] theorem copyTo_bus (s : State) (r : Option Reg8) (v : Byte) : (s.copyTo r v).bus = s.bus := by
  cases r <;> simp [State.copyTo]

/-! ### The single accesses -/

theorem Access.refl (s : State) : Access as s s := ⟨fun _ _ => rfl, List.suffix_rfl, rfl⟩

/-- What touches neither memory nor the record is no access. -/
theorem Access.kept (h : Access as s t) (hmem : u.mem = t.mem := by simp) (hbus : u.bus = t.bus := by simp) :
    Access as s u :=
  ⟨fun x hx => (congrArg (Memory.read · x.toNat) hmem).trans (h.peek x hx), hbus ▸ h.grows, hbus ▸ h.completes⟩

theorem Access.writeF (h : Access as s t) (v : Byte) : Access as s (t.writeF v) := h.kept

theorem Access.setMemptr (h : Access as s t) (v : Word) : Access as s (t.setMemptr v) := h.kept

/-- Forming the address of (IX+d) is no access. -/
theorem access_setMemptr (s : State) (v : Word) : Access as s (s.setMemptr v) := (Access.refl s).setMemptr v

theorem Access.emit (h : Access as s t) (ev : BusEvent) (hev : ev ≠ .instructionComplete := by nofun) :
    Access as s (t.emit ev) :=
  ⟨h.peek, h.grows.trans (List.suffix_cons _ _), (List.count_cons_of_ne hev).trans h.completes⟩

theorem Access.store (h : Access as s t) (v : Byte) (hw : w ∈ as) : Access as s (t.store w v) := by
  obtain ⟨-, hgrows, hcompletes⟩ := h.emit (.writeByte w v)
  refine ⟨fun x hx => ?_, hgrows, hcompletes⟩
  have hne : x ≠ w := fun he => hx (he ▸ hw)
  rw [peek_store_ne t v hne, h.peek x hx]

theorem Access.read (h : Access as s t) (w : Word) : Access as s (t.emit (.readByte w)) := h.emit _

theorem Access.read16 (h : Access as s t) (w : Word) :
    Access as s ((t.emit (.readByte w)).emit (.readByte (w + 1#16))) := (h.read w).read _

theorem Access.store16 (h : Access as s t) (v : Word) (h1 : w ∈ as) (h2 : w + 1#16 ∈ as) :
    Access as s (t.store16 w v) := (h.store (lo v) h1).store (hi v) h2

theorem Access.push16 (h : Access as s t) (v : Word) (h1 : t.sp - 1#16 ∈ as) (h2 : t.sp - 2#16 ∈ as) :
    Access as s (t.push16 v) := by
  rw [push16_eq]
  exact ((h.store (hi v) h1).store (lo v) h2).kept rfl rfl

theorem Access.call (h : Access as s t) (target : Word) (h1 : t.sp - 1#16 ∈ as) (h2 : t.sp - 2#16 ∈ as) :
    Access as s (t.call target) := by
  have hpc : Access as s ((t.push16 t.pc).setPc target) := (h.push16 t.pc h1 h2).kept
  exact hpc.setMemptr target

theorem Access.afterPortIn (h : Access as s t) (port : Word) : Access as s (t.afterPortIn port) :=
  (h.emit (.portIn port)).kept rfl rfl

/-! ### The shared operations -/

theorem accesses_accumulate (op : AluOp) (src : Src) : Accesses as s (s.accumulate op src) := by
  have hafter : Access as s (src.after s) := by
    cases src with
    | mem => exact (Access.refl s).read s.hl
    | indexed x d => exact (access_setMemptr s (s.ea x d)).read (s.ea x d)
    | reg | imm | half => exact Access.refl s
  rw [accumulate_eq]
  exact accesses_next (hafter.kept rfl rfl)

theorem Access.modifyMem (h : Access as s t) (g : Byte → Byte → Byte × Byte) (hw : w ∈ as) :
    Accesses as s (t.modifyMem w g) :=
  accesses_next (((h.read w).writeF _).store _ hw)

theorem Access.changeMem (h : Access as s t) (g : Byte → Byte) (hw : w ∈ as) : Accesses as s (t.changeMem w g) :=
  accesses_next ((h.read w).store _ hw)

theorem accesses_rotateIndexed (op : RotOp) (x : Idx) (d : Byte) (r : Option Reg8) :
    Accesses [s.ea x d] s (s.rotateIndexed op x d r) := by
  have hread : Access [s.ea x d] s _ := (access_setMemptr s (s.ea x d)).read (s.ea x d)
  have hrotated := (hread.writeF (rotate op (s.peek (s.ea x d)) s.f).2).store (rotate op (s.peek (s.ea x d)) s.f).1 (.head _)
  exact accesses_next hrotated.kept

theorem accesses_changeIndexed (g : Byte → Byte) (x : Idx) (d : Byte) (r : Option Reg8) :
    Accesses [s.ea x d] s (s.changeIndexed g x d r) := by
  have hread : Access [s.ea x d] s _ := (access_setMemptr s (s.ea x d)).read (s.ea x d)
  have hchanged := hread.store (g (s.peek (s.ea x d))) (.head _)
  exact accesses_next hchanged.kept

theorem Access.returning (h : Access as s t) : Accesses as s t.returning := by
  rw [returning_eq]
  exact accesses_next ((h.read16 t.sp).kept rfl rfl)

theorem accesses_callCcNn (cc : Cond) (nn : Word) :
    Accesses (storedAddrs s (.callCcNn cc nn)) s (execCallCcNn cc nn s) := by
  rw [execCallCcNn, storedAddrs]
  split
  · exact accesses_next ((Access.refl s).call nn (.head _) (.tail _ (.head _)))
  · exact accesses_next (access_setMemptr s nn)

/-- The accesses of EX (SP): two reads, then the old value is stored, high byte first (41_load16_stack_exchange.md R257). -/
theorem access_exchangeStackTop (s : State) (old : Word) : Access [s.sp, s.sp + 1#16] s
    ((((s.emit (.readByte s.sp)).emit (.readByte (s.sp + 1#16))).store (s.sp + 1#16) (hi old)).store s.sp (lo old)) :=
  (((Access.refl s).read16 s.sp).store _ (.tail _ (.head _))).store _ (.head _)

/-! ### The block operations: one iteration, and what comes after it -/

variable {k : State → Result} {down : Bool}

theorem accesses_blockLd (hk : ∀ u, Access [s.de] s u → Accesses [s.de] s (k u)) : Accesses [s.de] s (s.blockLd down k) :=
  hk _ ((((Access.refl s).read s.hl).store _ (.head _)).kept rfl rfl)

theorem accesses_blockCp (hk : ∀ u, Access as s u → Accesses as s (k u)) : Accesses as s (s.blockCp down k) :=
  hk _ (((Access.refl s).read s.hl).kept rfl rfl)

theorem accesses_blockIn (hk : ∀ u, Access [s.hl] s u → Accesses [s.hl] s (k u)) : Accesses [s.hl] s (s.blockIn down k) :=
  hk _ ((((access_setMemptr s (advance down s.bc)).afterPortIn s.bc).store _ (.head _)).kept rfl rfl)

theorem accesses_blockOut (hk : ∀ u, Access as s u → Accesses as s (k u)) : Accesses as s (s.blockOut down k) := by
  rw [blockOut_eq]
  exact hk _ ((((Access.refl s).read s.hl).emit (.portOut _ _)).kept rfl rfl)

/-- A repetition moves PC and MEMPTR only (46_block.md R456). -/
theorem Access.repeatIf (h : Access as s t) (again : State → Bool) (setsMemptr : Bool) :
    Accesses as s (State.repeatIf again setsMemptr t) := by
  refine accesses_ite ?_ (accesses_next h)
  unfold State.repeating
  split
  · split <;> exact accesses_next (h.kept rfl rfl)
  · exact accesses_refused _

/-! ### The instructions -/

/-- Every instruction that is no naming row makes only the accesses of its rule; those that are left to the last case touch
neither memory nor the record. -/
theorem exec_accesses {i : Instr} (hi : i.resolve = i) (s : State) : Accesses (storedAddrs s i) s (exec i s) := by
  have h0 : Access (storedAddrs s i) s s := Access.refl s
  cases i with
  | cbPrefix | edPrefix | ddCb | edAfterIndex | prefixIgnored => exact absurd rfl (coreBody_of_resolve hi)
  | addAR | adcAR | subR | sbcAR | andR | xorR | orR | cpR => exact accesses_accumulate _ (.reg _)
  | addAN | adcAN | subN | sbcAN | andN | xorN | orN | cpN => exact accesses_accumulate _ (.imm _)
  | addAM | adcAM | subM | sbcAM | andM | xorM | orM | cpM => exact accesses_accumulate _ .mem
  | addAXh | adcAXh | subXh | sbcAXh | andXh | xorXh | orXh | cpXh => exact accesses_accumulate _ (.half _ _)
  | addAXd | adcAXd | subXd | sbcAXd | andXd | xorXd | orXd | cpXd => exact accesses_accumulate _ (.indexed _ _)
  | ldRM | bitM => exact accesses_next (h0.read s.hl).kept
  | ldAPair p => exact accesses_next (h0.read (s.bcDe p)).kept
  | ldANn nn => exact accesses_next (h0.read nn).kept
  | ldRXd x _ d | bitXd x _ d => exact accesses_next ((access_setMemptr s (s.ea x d)).read (s.ea x d)).kept
  | ldHlNn nn | ldIxMem _ nn | ldDdMem _ nn => exact accesses_next (h0.read16 nn).kept
  | popIx x => exact accesses_next (h0.read16 s.sp).kept
  | popQq p => cases p <;> exact accesses_next (h0.read16 s.sp).kept
  | ret => exact h0.returning
  | retCc => exact accesses_ite h0.returning (accesses_next h0)
  | retn | reti => exact (h0.kept (u := s.setIffs s.iff2 s.iff2)).returning
  | ldMR | ldMN => exact accesses_next (h0.store _ (.head _))
  | ldXdR | ldXdN => exact accesses_next ((access_setMemptr s _).store _ (.head _))
  | ldPairA | ldNnA => exact accesses_next ((h0.store _ (.head _)).setMemptr _)
  | rld | rrd => exact accesses_next (((h0.read s.hl).store _ (.head _)).kept rfl rfl)
  | ldNnHl | ldNnDd | ldNnIx => exact accesses_next ((h0.store16 _ (.head _) (.tail _ (.head _))).setMemptr _)
  | pushQq | pushIx => exact accesses_next (h0.push16 _ (.head _) (.tail _ (.head _)))
  | callNn | rst => exact accesses_next (h0.call _ (.head _) (.tail _ (.head _)))
  | callCcNn cc nn => exact accesses_callCcNn cc nn
  | incM | decM | rlcM | rrcM | rlM | rrM | slaM | sraM | sllM | srlM => exact h0.modifyMem _ (.head _)
  | incXd | decXd => exact (access_setMemptr s _).modifyMem _ (.head _)
  | setM | resM => exact h0.changeMem _ (.head _)
  | rlcXd | rrcXd | rlXd | rrXd | slaXd | sraXd | sllXd | srlXd => exact accesses_rotateIndexed _ _ _ _
  | setXd | resXd => exact accesses_changeIndexed _ _ _ _
  | exSpHl => exact accesses_next (access_exchangeStackTop s s.hl).kept
  | exSpIx x => exact accesses_next (access_exchangeStackTop s (s.idx x)).kept
  | inAN n => exact accesses_next (h0.afterPortIn (join s.a n)).kept
  | inRC | inC => exact accesses_next (h0.afterPortIn s.bc).kept
  | outNA | outCR | outC0 => exact accesses_next ((h0.emit (.portOut _ _)).setMemptr _)
  | ldi | ldd => exact accesses_blockLd fun _ => accesses_next
  | cpi | cpd => exact accesses_blockCp fun _ => accesses_next
  | ini | ind => exact accesses_blockIn fun _ => accesses_next
  | outi | outd => exact accesses_blockOut fun _ => accesses_next
  | ldir | lddr => exact accesses_blockLd fun _ h => h.repeatIf _ _
  | cpir | cpdr => exact accesses_blockCp fun _ h => h.repeatIf _ _
  | inir | indr => exact accesses_blockIn fun _ h => h.repeatIf _ _
  | otir | otdr => exact accesses_blockOut fun _ h => h.repeatIf _ _
  | djnz => exact accesses_ite (accesses_next h0.kept) (accesses_next (h0.kept rfl rfl))
  | jrCc => exact accesses_ite (accesses_next (h0.kept rfl rfl)) (accesses_next h0)
  | jpCcNn => exact accesses_ite (accesses_next (h0.kept rfl rfl)) (accesses_next (access_setMemptr s _))
  | _ => exact accesses_next (h0.kept (by simp [State.jumpRel, State.jump, State.flagsAdd16])
      (by simp [State.jumpRel, State.jump, State.flagsAdd16]))

/-- Every instruction makes only the accesses of its rule, a naming row those of the instruction it names. -/
theorem exec_access {i : Instr} (h : exec i s = .next t) : Access (storesTo i s) s t := by
  rw [exec_resolve] at h
  exact exec_accesses (resolve_namesRow i) s t h

/-- Settles O12: memory is a part of the accesses of an instruction. -/
theorem frameOfMemory : Obligations.FrameOfMemory := by
  intro i s t x h
  exact (exec_access h).peek x

end Sys2Proof.Machine
end

section
/-! SUPPORT. The requests that each kind of step issues (20_memory.md R87, 60_exceptions.md R621); O17. -/

namespace Sys2Proof.Machine

variable {as : List Word} {s t u : State}

/-! ### Fetching -/

theorem instructionComplete_not_mem_requestsFrom {request : Word → BusEvent} (h : ∀ a, request a ≠ .instructionComplete)
    (a : Word) (n : Nat) : .instructionComplete ∉ requestsFrom request a n := by
  simp [requestsFrom, h]

/-- No request of a fetch ends an instruction. -/
theorem instructionComplete_not_mem_fetchRequests (s : State) (i : Instr) :
    .instructionComplete ∉ s.fetchRequests i := by
  have hopening : .instructionComplete ∉ s.openingRequests := by
    unfold State.openingRequests
    split <;> simp
  simp only [State.fetchRequests, List.mem_append, not_or]
  exact ⟨⟨hopening, instructionComplete_not_mem_requestsFrom (request := .fetchOpcode) (fun _ => nofun) _ _⟩,
    instructionComplete_not_mem_requestsFrom (request := .readByte) (fun _ => nofun) _ _⟩

theorem access_fetched (s : State) (i : Instr) : Access as s (s.fetched i) := by
  rw [fetched_eq]
  refine ⟨fun _ _ => rfl, List.suffix_append _ _, ?_⟩
  rw [List.count_append, List.count_reverse, List.count_eq_zero_of_not_mem (instructionComplete_not_mem_fetchRequests s i),
    Nat.zero_add]

/-- An access of a state that another access has led to. -/
theorem Access.trans (h : Access as s t) (h' : Access as t u) : Access as s u :=
  ⟨fun x hx => (h'.peek x hx).trans (h.peek x hx), h.grows.trans h'.grows, h'.completes.trans h.completes⟩

/-! ### Interrupt entries -/

theorem Access.takeInterrupt_fixed (h : Access as s t) (h1 : t.sp - 1#16 ∈ as) (h2 : t.sp - 2#16 ∈ as) (target : Word) :
    Accesses as s (t.takeInterrupt (fixedVector target)) := 
  accesses_next ((h.call target h1 h2).kept rfl rfl)

/-- The handler's address is read from the table (60_exceptions.md R611). -/
theorem Access.takeInterrupt_table (h : Access as s t) (h1 : t.sp - 1#16 ∈ as) (h2 : t.sp - 2#16 ∈ as) (table : Word) :
    Accesses as s (t.takeInterrupt fun v k => v.loading16 table k) := by
  rw [State.takeInterrupt, loading16_eq]
  exact accesses_next (((h.push16 t.pc h1 h2).read16 table).kept (by simp [State.jump]) (by simp [State.jump]))

theorem Access.afterIntAck (h : Access as s t) : Access as s t.afterIntAck := (h.emit .intAck).kept rfl rfl

theorem serviceNmi_accesses (s : State) : Accesses [s.sp - 1#16, s.sp - 2#16] s s.serviceNmi := by
  have hv : Access [s.sp - 1#16, s.sp - 2#16] s ((s.setNmiPending false).leaveHalt).incR := by
    rw [leaveHalt_eq]
    exact (Access.refl s).kept rfl rfl
  have hsp : ((s.setNmiPending false).leaveHalt).incR.sp = s.sp := by rw [leaveHalt_eq]; rfl
  rw [State.serviceNmi]
  generalize ((s.setNmiPending false).leaveHalt).incR = v at hv hsp
  rw [← hsp] at hv ⊢
  exact (hv.kept (u := v.setIffs false v.iff2)).takeInterrupt_fixed (.head _) (.tail _ (.head _)) _

theorem serviceInt_accesses (s : State) : Accesses [s.sp - 1#16, s.sp - 2#16] s s.serviceInt := by
  have hv : Access [s.sp - 1#16, s.sp - 2#16] s ((((s.clearPvOfLdAIR).leaveHalt).incR).setIffs false false) := by
    rw [entering_eq]
    exact (Access.refl s).kept rfl rfl
  have hsp : ((((s.clearPvOfLdAIR).leaveHalt).incR).setIffs false false).sp = s.sp := by rw [entering_eq]
  rw [State.serviceInt]
  dsimp only
  generalize (((s.clearPvOfLdAIR).leaveHalt).incR).setIffs false false = v at hv hsp
  rw [← hsp] at hv ⊢
  split
  · exact accesses_ite (hv.afterIntAck.takeInterrupt_fixed (.head _) (.tail _ (.head _)) _) (accesses_refused _)
  · exact hv.takeInterrupt_fixed (.head _) (.tail _ (.head _)) _
  · exact hv.afterIntAck.takeInterrupt_table (.head _) (.tail _ (.head _)) _

/-! ### The end of a step -/

/-- The requests of a step: they are added, and instruction-complete is called once if the step ends an instruction. -/
def StepRequests (s t : State) : Prop :=
  (∃ new, t.bus = new ++ s.bus) ∧
  t.bus.count .instructionComplete = s.bus.count .instructionComplete + (if t.kind = .insn then 1 else 0)

theorem Access.setKind (h : Access as s u) {k : StepKind} (hk : k ≠ .insn) : StepRequests s (u.setKind k) := by
  obtain ⟨new, hnew⟩ := h.grows
  refine ⟨⟨new, hnew.symm⟩, h.completes.trans ?_⟩
  rw [if_neg (show (u.setKind k).kind ≠ .insn from hk), Nat.add_zero]

theorem Access.complete (h : Access as s u) : StepRequests s u.complete := by
  obtain ⟨new, hnew⟩ := h.grows
  refine ⟨⟨.instructionComplete :: new, congrArg (BusEvent.instructionComplete :: ·) hnew.symm⟩, ?_⟩
  calc u.complete.bus.count .instructionComplete
      = u.bus.count .instructionComplete + 1 := List.count_cons_self
    _ = s.bus.count .instructionComplete + 1 := congrArg (· + 1) h.completes

theorem Access.finish (h : Access as s u) (i : Instr) : StepRequests s (u.finish i) := by
  unfold State.finish
  split
  · exact h.setKind nofun
  · exact h.complete

/-- Settles O17: the requests of each kind of step; only the end of an instruction calls instruction-complete. -/
theorem busRequestsOfAStep : Obligations.BusRequestsOfAStep := by
  intro s t h
  rw [← and_assoc]
  cases step_cases h with
  | reset => exact ⟨((Access.refl (as := []) s).kept (u := s.applyReset) rfl rfl).setKind nofun, fun _ => rfl⟩
  | @nmi u _ hu => exact ⟨(serviceNmi_accesses s u hu).setKind nofun, nofun⟩
  | @int u _ hu => exact ⟨(serviceInt_accesses s u hu).setKind nofun, nofun⟩
  | halt =>
    rw [haltStep_eq]
    exact ⟨(((Access.refl (as := []) s).emit (.fetchOpcode s.pc)).kept rfl rfl).setKind nofun, nofun⟩
  | instr _ hu =>
    refine ⟨((access_fetched s s.decoded).trans (exec_access hu)).finish s.decoded, fun hkind => ?_⟩
    rw [finish_kind] at hkind
    split at hkind <;> cases hkind

end Sys2Proof.Machine
end

section
/-! SUPPORT. What the decoder gives for any bytes (30_encoding.md R122): a well-formed instruction that is no naming row and whose
bytes are the ones at the front; O3. -/

namespace Sys2Proof.Machine

/-- The first `n` of an opcode and the two bytes after it, these two written as the halves of the word they form when both are
taken: operand bytes and a word operand look alike in `Instr.coreBody`. -/
def frontBytes (op b1 b2 : Byte) : Nat → List Byte
  | 1 => [op]
  | 2 => [op, b1]
  | _ => [op, lo (join b2 b1), hi (join b2 b1)]

theorem frontBytes_prefix (op b1 b2 b3 : Byte) (n : Nat) : frontBytes op b1 b2 n <+: [op, b1, b2, b3] := by
  unfold frontBytes
  split <;> simp

/-- A well-formed instruction whose own bytes are at the front of `bytes`. -/
structure Fits (i : Instr) (bytes : List Byte) : Prop where
  wellFormed : i.wellFormed = true
  coreBody : i.coreBody <+: bytes

theorem fits_of_frontBytes {i : Instr} {op b1 b2 b3 : Byte} (hwf : i.wellFormed = true)
    (hbody : i.coreBody = frontBytes op b1 b2 i.coreBody.length) : Fits i [op, b1, b2, b3] :=
  ⟨hwf, hbody ▸ frontBytes_prefix op b1 b2 b3 _⟩

/-! ### The pages -/

theorem decodeCb_latch_wellFormed (op : Byte) : (decodeCb op).latch = none ∧ (decodeCb op).wellFormed = true := by
  revert op
  decide

theorem decodeEd_latch_wellFormed (op b1 b2 : Byte) :
    (decodeEd op b1 b2).latch = none ∧ (decodeEd op b1 b2).wellFormed = true := by
  revert op
  apply byte_cases
  intro n hn
  interval_cases n <;> exact ⟨rfl, rfl⟩

theorem decodeCb_fits (op b2 b3 : Byte) : Fits (decodeCb op) [0xCB#8, op, b2, b3] :=
  ⟨(decodeCb_latch_wellFormed op).2, by simp [decodeCb_coreBody]⟩

theorem decodeEd_fits (op b1 b2 : Byte) : Fits (decodeEd op b1 b2) [0xED#8, op, b1, b2] := by
  refine ⟨(decodeEd_latch_wellFormed op b1 b2).2, ?_⟩
  rcases decodeEd_coreBody op b1 b2 with h | h <;> simp [h]

theorem decodeIndexCb_fits (x : Idx) (d op b3 : Byte) : Fits (decodeIndexCb x d op) [0xCB#8, d, op, b3] := by
  refine ⟨?_, by simp [decodeIndexCb_coreBody]⟩
  unfold decodeIndexCb
  split
  · split <;> rfl
  all_goals rfl

/-- What the base page gives; it needs no prefix. -/
theorem decodeBase_latch_fits (op b1 b2 b3 : Byte) :
    (decodeBase op b1 b2 b3).latch = none ∧ Fits (decodeBase op b1 b2 b3) [op, b1, b2, b3] := by
  by_cases hcb : op = 0xCB#8
  · subst hcb; exact ⟨(decodeCb_latch_wellFormed b1).1, decodeCb_fits b1 b2 b3⟩
  by_cases hed : op = 0xED#8
  · subst hed; exact ⟨(decodeEd_latch_wellFormed b1 b2 b3).1, decodeEd_fits b1 b2 b3⟩
  revert op
  apply byte_cases
  intro n hn hcb hed
  interval_cases n <;> first
    | exact absurd rfl hcb
    | exact absurd rfl hed
    | exact ⟨rfl, fits_of_frontBytes rfl rfl⟩

/-- What an indexable opcode gives; `LD (IX+d),n` is the one with two operand bytes that form no word. -/
theorem decodeIndex_fits_of_indexable (x : Idx) (op b1 b2 b3 : Byte) (h : indexable op = true) :
    Fits (decodeIndex x op b1 b2 b3) [op, b1, b2, b3] := by
  by_cases hmem : op = 0x36#8
  · subst hmem; exact ⟨rfl, [b3], rfl⟩
  revert op
  apply byte_cases
  intro n hn h hmem
  interval_cases n <;> first
    | exact absurd h (by decide)
    | exact absurd rfl hmem
    | exact fits_of_frontBytes rfl rfl

theorem decodeIndex_fits (x : Idx) (op b1 b2 b3 : Byte) : Fits (decodeIndex x op b1 b2 b3) [op, b1, b2, b3] := by
  by_cases hcb : op = 0xCB#8
  · subst hcb; exact decodeIndexCb_fits x b1 b2 b3
  by_cases hdd : op = 0xDD#8
  · subst hdd; exact fits_of_frontBytes rfl rfl
  by_cases hfd : op = 0xFD#8
  · subst hfd; exact fits_of_frontBytes rfl rfl
  by_cases hidx : indexable op = true
  · exact decodeIndex_fits_of_indexable x op b1 b2 b3 hidx
  · rw [decodeIndex, if_neg hcb, if_neg hdd, if_neg hfd, if_neg hidx]
    exact (decodeBase_latch_fits op b1 b2 b3).2

/-! ### Any four bytes -/

theorem decodeAt_resolve (latch : Option Idx) (b0 b1 b2 b3 : Byte) :
    (decodeAt latch b0 b1 b2 b3).resolve = decodeAt latch b0 b1 b2 b3 := by
  cases latch with
  | none => exact decodeBase_resolve b0 b1 b2 b3
  | some x => exact decodeIndex_resolve x b0 b1 b2 b3

theorem decodeAt_fits (latch : Option Idx) (b0 b1 b2 b3 : Byte) :
    Fits (decodeAt latch b0 b1 b2 b3) [b0, b1, b2, b3] := by
  cases latch with
  | none => exact (decodeBase_latch_fits b0 b1 b2 b3).2
  | some x => exact decodeIndex_fits x b0 b1 b2 b3

/-- Settles O3: what each page gives is well-formed, no naming row, and begins with the bytes it was given. -/
theorem everyByteStringDecodes : Obligations.EveryByteStringDecodes := by
  intro latch b0 b1 b2 b3
  have hresolve := decodeAt_resolve latch b0 b1 b2 b3
  obtain ⟨hwf, hbody⟩ := decodeAt_fits latch b0 b1 b2 b3
  refine ⟨hwf, hresolve, ?_⟩
  rw [Instr.body, hresolve]
  exact hbody

end Sys2Proof.Machine
end

section
/-! SUPPORT. The decoder undoes the encoder (30_encoding.md R118): bytes that begin with an instruction's own bytes decode to it;
O2, O1. -/

namespace Sys2Proof.Machine

/-- Any four bytes that begin with `body` decode to `i` under the latch. -/
def Reads (latch : Option Idx) (body : List Byte) (i : Instr) : Prop :=
  ∀ b0 b1 b2 b3 : Byte, body <+: [b0, b1, b2, b3] → decodeAt latch b0 b1 b2 b3 = i

variable {latch : Option Idx} {op : Byte} {i : Instr}

/-! ### Bodies by their length -/

theorem reads_one (h : ∀ b1 b2 b3, decodeAt latch op b1 b2 b3 = i) : Reads latch [op] i := by
  rintro b0 b1 b2 b3 ⟨bs, hbs⟩
  cases hbs
  exact h b1 b2 b3

theorem reads_two {n : Byte} (h : ∀ b2 b3, decodeAt latch op n b2 b3 = i) : Reads latch [op, n] i := by
  rintro b0 b1 b2 b3 ⟨bs, hbs⟩
  cases hbs
  exact h b2 b3

theorem reads_three {d n : Byte} (h : ∀ b3, decodeAt latch op d n b3 = i) : Reads latch [op, d, n] i := by
  rintro b0 b1 b2 b3 ⟨bs, hbs⟩
  cases hbs
  exact h b3

theorem reads_four {d n m : Byte} (h : decodeAt latch op d n m = i) : Reads latch [op, d, n, m] i := by
  rintro b0 b1 b2 b3 ⟨bs, hbs⟩
  cases hbs
  exact h

theorem reads_base (h : ∀ b1 b2 b3, decodeBase op b1 b2 b3 = i) : Reads none [op] i := reads_one h

theorem reads_cb (h : decodeCb op = i) : Reads none [0xCB#8, op] i := reads_two fun _ _ => h

theorem reads_ed (h : ∀ b1 b2, decodeEd op b1 b2 = i) : Reads none [0xED#8, op] i := reads_two h

theorem reads_indexCb {x : Idx} {d : Byte} (h : decodeIndexCb x d op = i) : Reads (some x) [0xCB#8, d, op] i :=
  reads_three fun _ => h

/-- An opcode with a word operand, low byte first (30_encoding.md R111). -/
theorem reads_word (f : Word → Instr) (nn : Word) (h : ∀ b1 b2 b3, decodeAt latch op b1 b2 b3 = f (join b2 b1)) :
    Reads latch [op, lo nn, hi nn] (f nn) :=
  reads_three fun b3 => by rw [h, join_hi_lo]

/-- An opcode of the ED page with a word operand. -/
theorem reads_edWord (f : Word → Instr) (nn : Word) (h : ∀ b2 b3, decodeEd op b2 b3 = f (join b3 b2)) :
    Reads none [0xED#8, op, lo nn, hi nn] (f nn) :=
  reads_four ((h _ _).trans (by rw [join_hi_lo]))

/-! ### Fields of an opcode -/

theorem opXYZ_fields (x : BitVec 2) (y z : BitVec 3) :
    fieldX (opXYZ x y z) = x.toNat ∧ fieldY (opXYZ x y z) = y.toNat ∧ fieldZ (opXYZ x y z) = z.toNat :=
  ⟨fieldX_opXYZ x y z, fieldY_opXYZ x y z, fieldZ_opXYZ x y z⟩

theorem append_fields (x : BitVec 2) (v : BitVec 6) :
    fieldX (x ++ v) = x.toNat ∧ (x ++ v : Byte).extractLsb' 0 6 = v := by decide +revert

/-! ### The DD/FD page -/

theorem ne_prefix_of_indexable (h : indexable op = true) : op ≠ 0xCB#8 ∧ op ≠ 0xDD#8 ∧ op ≠ 0xFD#8 := by
  refine ⟨?_, ?_, ?_⟩ <;> rintro rfl <;> cases h

theorem ne_prefix_of_prefixIgnorable (h : prefixIgnorable op = true) : op ≠ 0xCB#8 ∧ op ≠ 0xDD#8 ∧ op ≠ 0xFD#8 := by
  refine ⟨?_, ?_, ?_⟩ <;> rintro rfl <;> cases h

/-- Before an opcode that is neither indexable nor a prefix byte, the prefix is ignored (48_cpu_control.md R504). -/
theorem decodeIndex_of_prefixIgnorable {x : Idx} (h : prefixIgnorable op = true) (b1 b2 b3 : Byte) :
    decodeIndex x op b1 b2 b3 = decodeBase op b1 b2 b3 := by
  have hidx : indexable op = false := by
    simp only [prefixIgnorable, Bool.and_eq_true, Bool.not_eq_true'] at h
    exact h.1
  simp [decodeIndex, ne_prefix_of_prefixIgnorable h, hidx]

/-! ### The rows with a constraint -/

theorem decodeEd_retn {y : BitVec 3} (h : (Instr.retn y).wellFormed = true) (b1 b2 : Byte) :
    decodeEd (opXYZ 1#2 y 5#3) b1 b2 = .retn y := by
  have hy : y.toNat ≠ 1 := fun he => bne_iff_ne.1 h (BitVec.eq_of_toNat_eq he)
  simp [decodeEd, decodeEd1, opXYZ_fields, bits3_toNat, hy]

theorem decodeEd2_nop {y z : BitVec 3} (h : (Instr.nopEd2 y z).wellFormed = true) :
    decodeEd2 (opXYZ 2#2 y z) = .nopEd2 y z := by decide +revert

theorem indexable_of_isHalf {r r' : RegX} (h : (r.isHalf || r'.isHalf) = true) :
    indexable (opXYZ 1#2 r.field r'.field) = true := by
  revert h
  cases r <;> cases r' <;> decide

theorem decodeIndexed1_opXYZ (x : Idx) (r r' : RegX) (b1 : Byte) :
    decodeIndexed1 x (opXYZ 1#2 r.field r'.field) b1 = .ldRRX x r r' := by
  cases r <;> cases r' <;> rfl

/-- With a half among its registers the opcode of `LD r,r'` is indexable (30_encoding.md R113 case 2). -/
theorem decodeIndex_ldRRX {x : Idx} {r r' : RegX} (h : (Instr.ldRRX x r r').wellFormed = true) (b1 b2 b3 : Byte) :
    decodeIndex x (opXYZ 1#2 r.field r'.field) b1 b2 b3 = .ldRRX x r r' := by
  have hidx := indexable_of_isHalf h
  simp [decodeIndex, ne_prefix_of_indexable hidx, hidx, opXYZ_fields, decodeIndexed1_opXYZ]

/-! ### The instructions -/

/-- The body of a well-formed instruction that is no naming row is read back: the fields of its opcode are. -/
theorem reads_coreBody (hi : i.resolve = i) (hwf : i.wellFormed = true) : Reads i.latch i.coreBody i := by
  cases i with
  | cbPrefix | edPrefix | ddCb | edAfterIndex | prefixIgnored => exact absurd rfl (coreBody_of_resolve hi)
  -- the opcode has no field
  | nop | exAfAf | incM | decM | rlca | rrca | rla | rra | daa | cpl | scf | ccf | halt | addAM | adcAM | subM | sbcAM | andM
  | xorM | orM | cpM | ret | exx | jpHl | ldSpHl | exSpHl | exDeHl | di | ei | incIx | decIx | popIx | exSpIx | pushIx
  | jpIx | ldSpIx => exact reads_one fun _ _ _ => rfl
  | djnz | jr | ldMN | addAN | adcAN | subN | sbcAN | andN | xorN | orN | cpN | outNA | inAN | rlcM | rrcM | rlM | rrM | slaM
  | sraM | sllM | srlM | inC | outC0 | reti | ldIA | ldRA | ldAI | ldAR | rrd | rld | ldi | cpi | ini | outi | ldd | cpd | ind
  | outd | ldir | cpir | inir | otir | lddr | cpdr | indr | otdr | incXd | decXd | addAXd | adcAXd | subXd | sbcAXd | andXd
  | xorXd | orXd | cpXd => exact reads_two fun _ _ => rfl
  | ldXdN => exact reads_three fun _ => rfl
  | ldNnHl | ldHlNn | ldNnA | ldANn | jpNn | callNn | ldIxNn | ldNnIx | ldIxMem => exact reads_word _ _ fun _ _ _ => rfl
  -- the opcode has a field of two bits
  | addHlSs p | incSs p | decSs p | popQq p | pushQq p | ldPairA p | ldAPair p | addIxPp _ p =>
    exact reads_one fun _ _ _ => by cases p <;> rfl
  | sbcHlSs p | adcHlSs p => exact reads_ed fun _ _ => by cases p <;> rfl
  | ldDdNn p => exact reads_word _ _ fun _ _ _ => by cases p <;> rfl
  | ldNnDd p | ldDdMem p => exact reads_edWord _ _ fun _ _ => by cases p <;> rfl
  | ddFdPrefix x | prefixAgain x => exact reads_one fun _ _ _ => by cases x <;> rfl
  | incXh _ h | decXh _ h | addAXh _ h | adcAXh _ h | subXh _ h | sbcAXh _ h | andXh _ h | xorXh _ h | orXh _ h | cpXh _ h =>
    exact reads_one fun _ _ _ => by cases h <;> rfl
  | ldXhN _ h => exact reads_two fun _ _ => by cases h <;> rfl
  | im0 y5 y3 => exact reads_ed fun _ _ => by cases y5 <;> cases y3 <;> rfl
  | im1 y5 | im2 y5 | nopEd7 y5 => exact reads_ed fun _ _ => by cases y5 <;> rfl
  -- the opcode has a register, condition or bit-number field
  | incR r | decR r | ldRM r | ldMR r | addAR r | adcAR r | subR r | sbcAR r | andR r | xorR r | orR r | cpR r =>
    exact reads_one fun _ _ _ => by cases r <;> rfl
  | ldRN r | inRC r | outCR r | ldRXd _ r | ldXdR _ r | rlcR r | rrcR r | rlR r | rrR r | slaR r | sraR r | sllR r | srlR r =>
    exact reads_two fun _ _ => by cases r <;> rfl
  | ldRR r r' => exact reads_one fun _ _ _ => by cases r <;> cases r' <;> rfl
  | ldRRX => exact reads_one (decodeIndex_ldRRX hwf)
  | bitR | resR | setR => exact reads_cb (by simp [decodeCb, opXYZ_fields, Reg8.ofField_field, bits3_toNat])
  | bitM | resM | setM => exact reads_cb (by simp [decodeCb, opXYZ_fields, Reg8.ofField, bits3_toNat])
  | rlcXd | rrcXd | rlXd | rrXd | slaXd | sraXd | sllXd | srlXd | resXd | setXd | bitXd =>
    exact reads_indexCb (by simp [decodeIndexCb, opXYZ_fields, Reg8.ofField_copyField, bits3_toNat])
  | rst => exact reads_base fun _ _ _ => by simp [decodeBase, decodeBase3, opXYZ_fields, bits3_toNat]
  | neg => exact reads_ed fun _ _ => by simp [decodeEd, decodeEd1, opXYZ_fields, bits3_toNat]
  | retn => exact reads_ed (decodeEd_retn hwf)
  | nopEd0 | nopEd3 => exact reads_ed fun _ _ => by simp [decodeEd, append_fields]
  | nopEd2 => exact reads_ed fun _ _ => by simp [decodeEd, opXYZ_fields, decodeEd2_nop hwf]
  | retCc cc => exact reads_one fun _ _ _ => by cases cc <;> rfl
  | jpCcNn cc | callCcNn cc => exact reads_word _ _ fun _ _ _ => by cases cc <;> rfl
  | jrCc cc =>
    exact reads_two fun _ _ => by
      cases cc with
      | nz | z | nc | c => rfl
      | po | pe | p | m => cases hwf

/-- What the base page gives is read back. -/
theorem reads_decodeBase (op b1 b2 b3 : Byte) :
    Reads none (decodeBase op b1 b2 b3).coreBody (decodeBase op b1 b2 b3) := by
  obtain ⟨hlatch, hfits⟩ := decodeBase_latch_fits op b1 b2 b3
  simpa only [hlatch] using reads_coreBody (decodeBase_resolve op b1 b2 b3) hfits.wellFormed

/-- A prefix that the opcode ignores does not change what the bytes decode to. -/
theorem Reads.under {body : List Byte} {x : Idx} (h : Reads none body i) (hbody : body.head? = some op)
    (hop : ∀ b1 b2 b3, decodeIndex x op b1 b2 b3 = decodeBase op b1 b2 b3) : Reads (some x) body i := by
  intro b0 b1 b2 b3 hp
  obtain ⟨bs, rfl⟩ := List.head?_eq_some_iff.1 hbody
  obtain ⟨rfl, -⟩ := List.cons_prefix_cons.1 hp
  exact (hop b1 b2 b3).trans (h _ _ _ _ hp)

/-- The bytes of a well-formed instruction decode to it under its latch, those of a naming row to the instruction it names. -/
theorem reads_body (hwf : i.wellFormed = true) : Reads i.latch i.body i.resolve := by
  cases i with
  | cbPrefix op => exact reads_decodeBase 0xCB#8 op 0#8 0#8
  | edPrefix op b1 b2 => exact reads_decodeBase 0xED#8 op b1 b2
  | ddCb x d op =>
    rw [Instr.body, show (Instr.ddCb x d op).resolve = decodeIndexCb x d op from rfl, decodeIndexCb_coreBody]
    exact reads_indexCb rfl
  | edAfterIndex x op b1 b2 =>
    exact (reads_decodeBase 0xED#8 op b1 b2).under (decodeBase_coreBody 0xED#8 op b1 b2) fun _ _ _ => rfl
  | prefixIgnored x op b1 b2 =>
    exact (reads_decodeBase op b1 b2 0#8).under (decodeBase_coreBody op b1 b2 0#8) (decodeIndex_of_prefixIgnorable hwf)
  | _ => exact reads_coreBody rfl hwf

/-! ### Byte lists -/

theorem exists_body_cons (i : Instr) : ∃ op bs, i.body = op :: bs := by
  obtain ⟨hm1, hlen, -⟩ := instr_bodyLength i
  exact List.exists_cons_of_length_pos (Nat.lt_of_lt_of_le hm1 hlen)

/-- A list that begins with at most four bytes, filled up with zeros: what the decoder gives at its front. -/
theorem Reads.decodeAt_front {bs : List Byte} (h : Reads latch (op :: bs) i) (hlen : (op :: bs).length ≤ 4)
    (rest : List Byte) :
    decodeAt latch op ((bs ++ rest).getD 0 0#8) ((bs ++ rest).getD 1 0#8) ((bs ++ rest).getD 2 0#8) = i := by
  apply h
  rcases bs with _ | ⟨b, _ | ⟨c, _ | ⟨d, _ | ⟨e, bs⟩⟩⟩⟩
  case cons.cons.cons.cons => simp only [List.length_cons] at hlen; omega
  all_goals simp

theorem resolve_body (i : Instr) : i.resolve.body = i.body := congrArg Instr.coreBody (resolve_namesRow i)

/-- A list that begins with the body is decoded, and the body is taken off. -/
theorem decode_of_reads (h : Reads latch i.body i.resolve) (rest : List Byte) :
    decode latch (i.body ++ rest) = .ok (i.resolve, rest) := by
  obtain ⟨-, -, hlen⟩ := instr_bodyLength i
  obtain ⟨op, bs, hbody⟩ := exists_body_cons i
  have hat := (hbody ▸ h).decodeAt_front (hbody ▸ hlen) rest
  simp only [hbody, List.cons_append, decode, hat, resolve_body]
  simp

/-! ### The words with the prefix in front -/

theorem decodeWords_of_ne (hdd : op ≠ 0xDD#8) (hfd : op ≠ 0xFD#8) (bs : List Byte) :
    decodeWords (op :: bs) = decode none (op :: bs) := by
  cases bs <;> simp [decodeWords, hdd, hfd]

theorem decodeWords_byte_cons (x : Idx) (b : Byte) (bs : List Byte) :
    decodeWords (x.byte :: b :: bs) = decode (some x) (b :: bs) := by
  cases x <;> rfl

/-- Only a prefix step resolves to one (30_encoding.md R117). -/
theorem resolve_ne_ddFdPrefix (hlatch : i.latch = none) (hstep : isPrefixStep i = false) (x : Idx) :
    i.resolve ≠ .ddFdPrefix x := by
  intro h
  have hlayer := congrArg Instr.layer h
  cases i with
  | cbPrefix op => exact absurd ((Laws.BodyLength.decodeCb_layer op).symm.trans hlayer) nofun
  | edPrefix op b1 b2 => exact absurd ((Laws.BodyLength.decodeEd_layer op b1 b2).symm.trans hlayer) nofun
  | ddCb | edAfterIndex | prefixIgnored => cases hlatch
  | ddFdPrefix => cases hstep
  | _ => cases h

theorem decodeAt_none_byte (x : Idx) (b1 b2 b3 : Byte) : decodeAt none x.byte b1 b2 b3 = .ddFdPrefix x := by
  cases x <;> rfl

/-- Where no latch is set, a body that begins with DD or FD is a prefix step's. -/
theorem ne_byte_of_reads (h : Reads none i.body i.resolve) (hlatch : i.latch = none) (hstep : isPrefixStep i = false)
    {bs : List Byte} (hbody : i.body = op :: bs) (x : Idx) : op ≠ x.byte := by
  rintro rfl
  obtain ⟨-, -, hlen⟩ := instr_bodyLength i
  have hat := (hbody ▸ h).decodeAt_front (hbody ▸ hlen) []
  exact resolve_ne_ddFdPrefix hlatch hstep x (hat.symm.trans (decodeAt_none_byte x _ _ _))

theorem decodeWords_encode (h : Reads i.latch i.body i.resolve) (hstep : isPrefixStep i = false) (rest : List Byte) :
    decodeWords (i.encode ++ rest) = .ok (i.resolve, rest) := by
  have hdecode := decode_of_reads h rest
  obtain ⟨op, bs, hbody⟩ := exists_body_cons i
  cases hl : i.latch with
  | none =>
    rw [hl] at h hdecode
    have hne := ne_byte_of_reads h hl hstep hbody
    rw [hbody] at hdecode
    simp only [Instr.encode, hl, hbody]
    exact (decodeWords_of_ne (hne .ix) (hne .iy) _).trans hdecode
  | some x =>
    rw [hl, hbody] at hdecode
    simp only [Instr.encode, hl, hbody]
    exact (decodeWords_byte_cons x op (bs ++ rest)).trans hdecode

/-- Settles O2: the bytes of the instruction are read back by the decoder, alone and behind their prefix. -/
theorem decodeOfEncodeIsTheInstruction : Obligations.DecodeOfEncodeIsTheInstruction := by
  intro i rest hwf
  have hreads := reads_body hwf
  exact ⟨decode_of_reads hreads rest, fun hstep => decodeWords_encode hreads hstep rest⟩

/-- Settles O1: the words and instructions are closed terms, and the decoder evaluates on them. -/
theorem decodeOfKnownWords : Obligations.DecodeOfKnownWords :=
  ⟨rfl, rfl, rfl, rfl, rfl, rfl, rfl, rfl, rfl, rfl, rfl, rfl⟩

end Sys2Proof.Machine
end

section
/-! SUPPORT. The prefix steps and the naming rows (30_encoding.md R117, R118, 48_cpu_control.md R504); O60. -/

namespace Sys2Proof.Machine

theorem decodeAt_some_byte (x y : Idx) (b1 b2 b3 : Byte) : decodeAt (some y) x.byte b1 b2 b3 = .prefixAgain x := by
  cases x <;> rfl

/-- Only an opcode of the ED page takes a third operand byte. -/
theorem decodeBase_third_operand_unused {op : Byte} (h : op ≠ 0xED#8) (b1 b2 b3 b3' : Byte) :
    decodeBase op b1 b2 b3 = decodeBase op b1 b2 b3' := by
  revert op
  apply byte_cases
  intro n hn h
  interval_cases n <;> first
    | exact absurd rfl h
    | rfl

/-- Settles O60: a prefix byte decodes to its prefix step; a naming row executes as its `resolve`, which is what its bytes decode
to. -/
theorem prefixResults : Obligations.PrefixResults := by
  intro s x y d op b1 b2 b3
  refine ⟨decodeAt_none_byte x b1 b2 b3, decodeAt_some_byte x y b1 b2 b3, rfl, rfl, exec_resolve (.cbPrefix op) s,
    exec_resolve (.edPrefix op b1 b2) s, exec_resolve (.ddCb x d op) s, exec_resolve (.edAfterIndex x op b1 b2) s, rfl,
    fun h => ⟨?_, decodeIndex_of_prefixIgnorable h b1 b2 b3⟩⟩
  have hed : op ≠ 0xED#8 := by rintro rfl; cases h
  rw [exec_resolve]
  exact congrArg (exec · s) (decodeBase_third_operand_unused hed b1 b2 0#8 b3)

end Sys2Proof.Machine
end

section
/-! SUPPORT. Which instructions complete: every one whose repetition, if it makes one, is not refused (46_block.md R456); O9. -/

namespace Sys2Proof.Machine

/-- The result is a next state. -/
def Completes (res : Result) : Prop := ∃ t, res = .next t

variable {s : State}

theorem completes_next (t : State) : Completes (.next t) := ⟨t, rfl⟩

theorem completes_ite {c : Prop} [Decidable c] {res res' : Result} (h : Completes res) (h' : Completes res') :
    Completes (if c then res else res') := by
  split
  · exact h
  · exact h'

theorem returning_completes (s : State) : Completes s.returning := ⟨_, returning_eq s⟩

/-! ### A repeating iteration (46_block.md R456) -/

section
variable (hparams : s.params.blockRepeatXY = .asSingle) (down : Bool) (again : State → Bool) (setsMemptr : Bool)
include hparams

/-- Under `as_single` the end of an iteration completes, repeating or not. -/
theorem repeatIf_completes : Completes (State.repeatIf again setsMemptr s) := by
  cases h : again s with
  | false => exact ⟨_, repeatIf_done h setsMemptr⟩
  | true => exact ⟨_, repeatIf_again h hparams setsMemptr⟩

theorem blockLd_completes : Completes (s.blockLd down (State.repeatIf again setsMemptr)) := by
  rw [blockLd_eq]
  exact repeatIf_completes (by simpa using hparams) again setsMemptr

theorem blockCp_completes : Completes (s.blockCp down (State.repeatIf again setsMemptr)) := by
  rw [blockCp_eq]
  exact repeatIf_completes (by simpa using hparams) again setsMemptr

theorem blockIn_completes : Completes (s.blockIn down (State.repeatIf again setsMemptr)) := by
  rw [blockIn_eq]
  exact repeatIf_completes (by simpa using hparams) again setsMemptr

theorem blockOut_completes : Completes (s.blockOut down (State.repeatIf again setsMemptr)) := by
  rw [blockOut_eq]
  exact repeatIf_completes (by simpa using hparams) again setsMemptr

end

/-! ### The instructions -/

/-- An instruction that neither repeats, branches nor returns answers a next state outright. -/
theorem exec_completes {i : Instr} (hi : i.resolve = i) (hparams : s.params.blockRepeatXY = .asSingle) :
    Completes (exec i s) := by
  cases i with
  | cbPrefix | edPrefix | ddCb | edAfterIndex | prefixIgnored => exact absurd rfl (coreBody_of_resolve hi)
  | ldir | lddr => exact blockLd_completes hparams _ _ _
  | cpir | cpdr => exact blockCp_completes hparams _ _ _
  | inir | indr => exact blockIn_completes hparams _ _ _
  | otir | otdr => exact blockOut_completes hparams _ _ _
  | djnz | jrCc | jpCcNn | callCcNn => exact completes_ite (completes_next _) (completes_next _)
  | retCc => exact completes_ite (returning_completes s) (completes_next s)
  | popQq p => cases p <;> exact completes_next _
  | _ => exact completes_next _

/-- Settles O9: every instruction completes as the one it resolves to. -/
theorem everyInstructionCompletes : Obligations.EveryInstructionCompletes := by
  intro i s hparams
  rw [exec_resolve]
  exact exec_completes (resolve_namesRow i) hparams

end Sys2Proof.Machine
end

section
/-! SUPPORT. The opcodes of the base page as numbers (30_encoding.md R102), and the 8-bit loads (40_load8.md); O31, O32, O33. -/

namespace Sys2Proof.Machine

/-! ### Opcodes as numbers (30_encoding.md R102) -/

theorem opXYZ_eq_opByte (x : BitVec 2) (y z : BitVec 3) :
    opXYZ x y z = opByte (64 * x.toNat + 8 * y.toNat + z.toNat) := by decide +revert

/-- A register in the y field, the number with its constant part in front. -/
theorem opXYZ_yField (x : BitVec 2) (y z : BitVec 3) :
    opXYZ x y z = opByte (64 * x.toNat + z.toNat + 8 * y.toNat) := by
  rw [opXYZ_eq_opByte, Nat.add_right_comm]

/-! ### The bytes of the loads -/

theorem encode_ldRR (r r' : Reg8) :
    (Instr.ldRR r r').encode = [opByte (0x40 + 8 * r.field.toNat + r'.field.toNat)] :=
  congrArg ([·]) (opXYZ_eq_opByte 1#2 r.field r'.field)

theorem encode_ldRN (r : Reg8) (n : Byte) : (Instr.ldRN r n).encode = [opByte (0x06 + 8 * r.field.toNat), n] :=
  congrArg ([·, n]) (opXYZ_yField 0#2 r.field 6#3)

theorem encode_ldRRX (x : Idx) (u u' : RegX) :
    (Instr.ldRRX x u u').encode = [x.byte, opByte (0x40 + 8 * u.field.toNat + u'.field.toNat)] :=
  congrArg ([x.byte, ·]) (opXYZ_eq_opByte 1#2 u.field u'.field)

theorem encode_ldXhN (x : Idx) (h : Half) (n : Byte) :
    (Instr.ldXhN x h n).encode = [x.byte, if h = .high then 0x26#8 else 0x2E#8, n] := by cases h <;> rfl

theorem encode_ldRM (r : Reg8) : (Instr.ldRM r).encode = [opByte (0x46 + 8 * r.field.toNat)] :=
  congrArg ([·]) (opXYZ_yField 1#2 r.field 6#3)

theorem encode_ldRXd (x : Idx) (r : Reg8) (d : Byte) :
    (Instr.ldRXd x r d).encode = [x.byte, opByte (0x46 + 8 * r.field.toNat), d] :=
  congrArg ([x.byte, ·, d]) (opXYZ_yField 1#2 r.field 6#3)

theorem encode_ldAPair (p : BcDe) : (Instr.ldAPair p).encode = [if p = .bc then 0x0A#8 else 0x1A#8] := by
  cases p <;> rfl

theorem encode_ldMR (r : Reg8) : (Instr.ldMR r).encode = [opByte (0x70 + r.field.toNat)] :=
  congrArg ([·]) (opXYZ_eq_opByte 1#2 6#3 r.field)

theorem encode_ldXdR (x : Idx) (r : Reg8) (d : Byte) :
    (Instr.ldXdR x r d).encode = [x.byte, opByte (0x70 + r.field.toNat), d] :=
  congrArg ([x.byte, ·, d]) (opXYZ_eq_opByte 1#2 6#3 r.field)

theorem encode_ldPairA (p : BcDe) : (Instr.ldPairA p).encode = [if p = .bc then 0x02#8 else 0x12#8] := by
  cases p <;> rfl

/-! ### The obligations -/

/-- Settles O31: the bytes of each form, and its one register write. -/
theorem registerLoads : Obligations.RegisterLoads := fun _ r r' n x u u' h =>
  ⟨encode_ldRR r r', rfl, encode_ldRN r n, rfl, encode_ldRRX x u u', rfl, encode_ldXhN x h n, rfl⟩

/-- Settles O32: the indexed address as a number, then for each form its bytes and the register it loads. -/
theorem memoryLoads : Obligations.MemoryLoads := fun s r x d p _ =>
  ⟨add_sext8_toNat (s.idx x) d, encode_ldRM r, rfl, encode_ldRXd x r d, rfl, encode_ldAPair p, rfl, rfl, rfl⟩

/-- Settles O33: the bytes of each form, and the byte it stores. -/
theorem memoryStores : Obligations.MemoryStores := fun _ r _ x d p _ =>
  ⟨encode_ldMR r, rfl, rfl, rfl, encode_ldXdR x r d, rfl, rfl, rfl, encode_ldPairA p, rfl, rfl, rfl⟩

end Sys2Proof.Machine
end

section
/-! SUPPORT. The opcodes with a register pair as numbers (30_encoding.md R102), and the 16-bit loads and stores, PUSH and POP and
the exchanges (41_load16_stack_exchange.md); O34, O35, O36, O38. -/

namespace Sys2Proof.Machine

/-! ### Opcodes as numbers (30_encoding.md R102) -/

/-- A register pair in the p field, the number with its constant part in front. -/
theorem opXPQZ_pField (x p : BitVec 2) (q : BitVec 1) (z : BitVec 3) :
    opXPQZ x p q z = opByte (64 * x.toNat + 8 * q.toNat + z.toNat + 16 * p.toNat) := by decide +revert

theorem encode_ldDdNn (p : Rp) (nn : Word) :
    (Instr.ldDdNn p nn).encode = [opByte (0x01 + 16 * p.field.toNat), lo nn, hi nn] :=
  congrArg ([·, lo nn, hi nn]) (opXPQZ_pField 0#2 p.field 0#1 1#3)

theorem encode_ldDdMem (p : Rp) (nn : Word) :
    (Instr.ldDdMem p nn).encode = [0xED#8, opByte (0x4B + 16 * p.field.toNat), lo nn, hi nn] :=
  congrArg ([0xED#8, ·, lo nn, hi nn]) (opXPQZ_pField 1#2 p.field 1#1 3#3)

theorem encode_ldNnDd (p : Rp) (nn : Word) :
    (Instr.ldNnDd p nn).encode = [0xED#8, opByte (0x43 + 16 * p.field.toNat), lo nn, hi nn] :=
  congrArg ([0xED#8, ·, lo nn, hi nn]) (opXPQZ_pField 1#2 p.field 0#1 3#3)

theorem encode_pushQq (p : Rp2) : (Instr.pushQq p).encode = [opByte (0xC5 + 16 * p.field.toNat)] :=
  congrArg ([·]) (opXPQZ_pField 3#2 p.field 0#1 5#3)

theorem encode_popQq (p : Rp2) : (Instr.popQq p).encode = [opByte (0xC1 + 16 * p.field.toNat)] :=
  congrArg ([·]) (opXPQZ_pField 3#2 p.field 0#1 1#3)

/-! ### A pair written or stored as its two halves (10_state.md R21) -/

section
variable (s : State) (high low : Byte)

theorem setHl_join : s.setHl (join high low) = { s with h := high, l := low } := by
  rw [State.setHl, hi_join, lo_join]

theorem setDe_join : s.setDe (join high low) = { s with d := high, e := low } := by
  rw [State.setDe, hi_join, lo_join]

theorem setBc_join : s.setBc (join high low) = { s with b := high, c := low } := by
  rw [State.setBc, hi_join, lo_join]

theorem setAf_join : s.setAf (join high low) = { s with a := high, f := low } := by
  rw [State.setAf, hi_join, lo_join]

theorem setAfAlt_join : s.setAfAlt (join high low) = { s with aAlt := high, fAlt := low } := by
  rw [State.setAfAlt, hi_join, lo_join]

/-- A pair stored is its low byte stored, then its high byte (20_memory.md R73). -/
theorem store16_join (nn : Word) :
    s.store16 nn (join high low) = (s.store nn low).store (nn + 1#16) high := by
  rw [State.store16, hi_join, lo_join]

end

theorem setGeneralAlt_join (s : State) (b c d e h l : Byte) :
    s.setGeneralAlt (join b c) (join d e) (join h l) =
      { s with bAlt := b, cAlt := c, dAlt := d, eAlt := e, hAlt := h, lAlt := l } := by
  simp only [State.setGeneralAlt, hi_join, lo_join]

/-! ### The instructions that hold a pair as its halves -/

theorem execLdHlNn_eq (nn : Word) (s : State) :
    execLdHlNn nn s = .next { (s.emit (.readByte nn)).emit (.readByte (nn + 1#16)) with
      h := s.peek (nn + 1#16), l := s.peek nn, memptr := nn + 1#16 } := by
  rw [execLdHlNn, loading16_eq, setHl_join]
  rfl

theorem execLdNnHl_eq (nn : Word) (s : State) :
    execLdNnHl nn s = .next { (s.store nn s.l).store (nn + 1#16) s.h with memptr := nn + 1#16 } := by
  rw [execLdNnHl, State.hl, store16_join]
  rfl

theorem execExDeHl_eq (s : State) : execExDeHl s = .next { s with d := s.h, e := s.l, h := s.d, l := s.e } := by
  rw [execExDeHl, State.hl, State.de, setDe_join, setHl_join]

theorem execExAfAf_eq (s : State) :
    execExAfAf s = .next { s with
      a := s.aAlt, f := s.fAlt, aAlt := s.a, fAlt := s.f, q := s.q || s.params.qOnPopExAF } := by
  rw [execExAfAf, State.af, setAf_join, setAfAlt_join]
  rfl

theorem execExx_eq (s : State) :
    execExx s = .next { s with
      b := s.bAlt, c := s.cAlt, d := s.dAlt, e := s.eAlt, h := s.hAlt, l := s.lAlt,
      bAlt := s.b, cAlt := s.c, dAlt := s.d, eAlt := s.e, hAlt := s.h, lAlt := s.l } := by
  rw [execExx, State.bc, State.de, State.hl, setBc_join, setDe_join, setHl_join, setGeneralAlt_join]

/-- The exchange with the top of the stack: both bytes are read, then the high byte is written before the low one
(41_load16_stack_exchange.md R257). -/
theorem exchangeStackTop_eq (s : State) (old : Word) (write : Word → State → State) :
    let read := (s.emit (.readByte s.sp)).emit (.readByte (s.sp + 1#16))
    let w := join (s.peek (s.sp + 1#16)) (s.peek s.sp)
    s.exchangeStackTop old write =
      .next { write w ((read.store (s.sp + 1#16) (hi old)).store s.sp (lo old)) with memptr := w } := rfl

theorem execExSpHl_eq (s : State) :
    let read := (s.emit (.readByte s.sp)).emit (.readByte (s.sp + 1#16))
    execExSpHl s = .next { (read.store (s.sp + 1#16) s.h).store s.sp s.l with
      h := s.peek (s.sp + 1#16), l := s.peek s.sp, memptr := join (s.peek (s.sp + 1#16)) (s.peek s.sp) } := by
  rw [execExSpHl, exchangeStackTop_eq, setHl_join, State.hl, hi_join, lo_join]

/-! ### The obligations -/

/-- Settles O34: the bytes of each form, and the pair it loads. -/
theorem wordLoads : Obligations.WordLoads := fun s p _ nn =>
  ⟨encode_ldDdNn p nn, rfl, rfl, rfl, rfl, rfl, rfl, rfl, rfl, execLdHlNn_eq nn s, rfl, rfl, encode_ldDdMem p nn, rfl⟩

/-- Settles O35: the bytes of each form, and its two stores. -/
theorem wordStores : Obligations.WordStores := fun s p _ nn =>
  ⟨rfl, execLdNnHl_eq nn s, rfl, rfl, encode_ldNnDd p nn, rfl⟩

/-- Settles O36: the bytes of each form, PUSH as its two stores and POP as its two reads. -/
theorem stackResults : Obligations.StackResults := fun s p x =>
  ⟨encode_pushQq p, congrArg Host.Outcome.next (push16_eq s (s.rp2 p)), rfl,
    congrArg Host.Outcome.next (push16_eq s (s.idx x)), encode_popQq p, execPopQq_eq p s, rfl,
    popping_eq s fun w u => .next (u.setIdx x w)⟩

/-- Settles O38: the bytes of each form, and the halves each pair receives. -/
theorem exchangeResults : Obligations.ExchangeResults := fun s x =>
  ⟨rfl, execExDeHl_eq s, rfl, execExAfAf_eq s, rfl, execExx_eq s, rfl, execExSpHl_eq s, rfl,
    exchangeStackTop_eq s (s.idx x) fun w u => u.setIdx x w⟩

end Sys2Proof.Machine
end

section
/-! SUPPORT. The eight accumulator operations over one operand and INC and DEC of a byte (42_alu8.md): their bytes, their
results and the eight bits of F; O39, O40, O41, O42. -/

namespace Sys2Proof.Machine

/-! ### The table `alu[y]` (42_alu8.md R280) -/

/-- The eight accumulator operations. -/
inductive Alu where
  | add | adc | sub | sbc | and | xor | or | cp

/-- The y field of an accumulator operation. -/
def Alu.y : Alu → BitVec 3
  | .add => 0#3 | .adc => 1#3 | .sub => 2#3 | .sbc => 3#3 | .and => 4#3 | .xor => 5#3 | .or => 6#3 | .cp => 7#3

/-- The model's operation. -/
def Alu.op : Alu → AluOp
  | .add => add8 | .adc => adc8 | .sub => sub8 | .sbc => sbc8 | .and => and8 | .xor => xor8 | .or => or8 | .cp => cp8

/-- The instruction in each operand form. -/
def Alu.form : Alu → Src → Instr
  | .add => addForm | .adc => adcForm | .sub => subForm | .sbc => sbcForm
  | .and => andForm | .xor => xorForm | .or => orForm | .cp => cpForm

theorem Alu.encode_form_reg (k : Alu) (r : Reg8) : (k.form (.reg r)).encode = [opXYZ 2#2 k.y r.field] := by cases k <;> rfl

/-- The bytes of an accumulator operation, in every operand form. -/
theorem Alu.encode_form (k : Alu) (src : Src) : (k.form src).encode = aluEncoding k.y.toNat src := by
  cases src with
  | reg r => exact (k.encode_form_reg r).trans (congrArg ([·]) (opXYZ_eq_opByte 2#2 k.y r.field))
  | half x h => cases h <;> cases k <;> rfl
  | imm | mem | indexed => cases k <;> rfl

/-- The next state of an accumulator operation, in every operand form. -/
theorem Alu.exec_form (k : Alu) (s : State) (src : Src) :
    exec (k.form src) s = .next { src.after s with
      a := (k.op s.a (src.value s) s.f).1, f := (k.op s.a (src.value s) s.f).2, q := true } := by
  rw [← accumulate_eq]
  cases k <;> cases src <;> rfl

/-- The next state of CP, which leaves A (42_alu8.md R288). -/
theorem exec_cpForm (s : State) (src : Src) :
    exec (cpForm src) s = .next { src.after s with f := (cp8 s.a (src.value s) s.f).2, q := true } := by
  cases src <;> rfl

/-! ### The bits of F, from the masks it is put together from (10_state.md R27, R32)

The lemmas about the masks and the flag tables speak of `getLsbD`; so `simp` is kept from turning it into indexing. -/

@[simp] theorem bitC_getLsbD (b : Bool) (k : Nat) : (bitC b).getLsbD k = (b && (0x01#8).getLsbD k) := maskIf_getLsbD ..
@[simp] theorem bitPV_getLsbD (b : Bool) (k : Nat) : (bitPV b).getLsbD k = (b && (0x04#8).getLsbD k) := maskIf_getLsbD ..
@[simp] theorem bitH_getLsbD (b : Bool) (k : Nat) : (bitH b).getLsbD k = (b && (0x10#8).getLsbD k) := maskIf_getLsbD ..

theorem flagsAre_iff {f : Byte} {s z y h x pv n c : Bool} :
    flagsAre f s z y h x pv n c ↔ f.getLsbD 7 = s ∧ f.getLsbD 6 = z ∧ f.getLsbD 5 = y ∧ f.getLsbD 4 = h ∧
      f.getLsbD 3 = x ∧ f.getLsbD 2 = pv ∧ f.getLsbD 1 = n ∧ f.getLsbD 0 = c := Iff.rfl

section
variable (a v res f : Byte) (h pv c : Bool)

/-- F of an addition: S, Z, Y and X from the result, N clear (42_alu8.md R281). -/
theorem flagsAre_sz53nAdd :
    flagsAre (sz53nAdd res ||| bitH h ||| bitPV pv ||| bitC c) (decide (128 ≤ res.toNat)) (res == 0#8) (res.getLsbD 5) h
      (res.getLsbD 3) pv false c := by
  rw [← getLsbD_seven]
  simp [flagsAre_iff, -BitVec.getLsbD_eq_getElem, sz53nAdd_getLsbD]

/-- F of a subtraction: S, Z, Y and X from the result, N set (42_alu8.md R283). -/
theorem flagsAre_sz53nSub :
    flagsAre (sz53nSub res ||| bitH h ||| bitPV pv ||| bitC c) (decide (128 ≤ res.toNat)) (res == 0#8) (res.getLsbD 5) h
      (res.getLsbD 3) pv true c := by
  rw [← getLsbD_seven]
  simp [flagsAre_iff, -BitVec.getLsbD_eq_getElem, sz53nSub_getLsbD, sz53nAdd_getLsbD]

/-- F of a comparison: as of a subtraction, but Y and X from the operand (42_alu8.md R288). -/
theorem flagsAre_compare :
    flagsAre ((sz53nSub res &&& 0xD7#8) ||| (v &&& 0x28#8) ||| bitH h ||| bitPV pv ||| bitC c) (decide (128 ≤ res.toNat))
      (res == 0#8) (v.getLsbD 5) h (v.getLsbD 3) pv true c := by
  rw [← getLsbD_seven]
  simp [flagsAre_iff, -BitVec.getLsbD_eq_getElem, sz53nSub_getLsbD, sz53nAdd_getLsbD]

/-- F of XOR and OR: the parity of the result in PV, H, N and C clear (42_alu8.md R286). -/
theorem flagsAre_sz53pnAdd :
    flagsAre (sz53pnAdd res) res.msb (res == 0#8) (res.getLsbD 5) false (res.getLsbD 3) (evenOnes res) false false := by
  simp [flagsAre_iff, -BitVec.getLsbD_eq_getElem, sz53pnAdd_getLsbD, sz53nAdd_getLsbD, BitVec.msb_eq_getLsbD_last,
    parity_eq_evenOnes]

/-- F of AND: as of XOR and OR, but H set (42_alu8.md R285). -/
theorem flagsAre_sz53pnAdd_h :
    flagsAre (sz53pnAdd res ||| 0x10#8) res.msb (res == 0#8) (res.getLsbD 5) true (res.getLsbD 3) (evenOnes res) false
      false := by
  simp [flagsAre_iff, -BitVec.getLsbD_eq_getElem, sz53pnAdd_getLsbD, sz53nAdd_getLsbD, BitVec.msb_eq_getLsbD_last,
    parity_eq_evenOnes]

/-! ### Overflow without a carry in, and equality by subtraction -/

theorem addOverflow_add : addOverflow a v (a + v) = overflows8 (a.toInt + v.toInt) := by
  simpa using addOverflow_exact (c := 0) (Nat.zero_le 1) (BitVec.toNat_add a v)

theorem subOverflow_sub : subOverflow a v (a - v) = overflows8 (a.toInt - v.toInt) := by
  simpa using subOverflow_exact (c := 0) (Nat.zero_le 1) (by simpa using sub_toNat_int a v)

theorem addOverflow_add_carry :
    addOverflow a v (a + v + carryByte f) = overflows8 (a.toInt + v.toInt + carryNat f) :=
  addOverflow_exact (carryNat_le f) (add_carry_toNat a v f)

theorem subOverflow_sub_carry :
    subOverflow a v (a - v - carryByte f) = overflows8 (a.toInt - v.toInt - carryNat f) :=
  subOverflow_exact (carryNat_le f) (sub_carry_toNat a v f)

theorem sub_beq_zero : (a - v == 0#8) = (a == v) := by
  rw [Bool.eq_iff_iff, beq_iff_eq, beq_iff_eq]
  exact sub_eq_zero

/-! ### INC and DEC of a byte -/

/-- Only 0x7F overflows when it is counted up (42_alu8.md R289). -/
theorem overflows8_add_one : overflows8 (v.toInt + 1) = (v == 0x7F#8) := by decide +revert

/-- Only 0x80 overflows when it is counted down (42_alu8.md R292). -/
theorem overflows8_sub_one : overflows8 (v.toInt - 1) = (v == 0x80#8) := by decide +revert

theorem flagsAre_incF :
    flagsAre (incF v f) (v + 1#8).msb (v + 1#8 == 0#8) ((v + 1#8).getLsbD 5) (v.toNat % 16 == 15) ((v + 1#8).getLsbD 3)
      (overflows8 (v.toInt + 1)) false (flagC f) := by
  rw [overflows8_add_one, flagsAre_iff, incF, BitVec.msb_eq_getLsbD_last]
  simp [-BitVec.getLsbD_eq_getElem, sz53nAdd_getLsbD, nibble, flagC]

theorem flagsAre_decF :
    flagsAre (decF v f) (v - 1#8).msb (v - 1#8 == 0#8) ((v - 1#8).getLsbD 5) (v.toNat % 16 == 0) ((v - 1#8).getLsbD 3)
      (overflows8 (v.toInt - 1)) true (flagC f) := by
  rw [overflows8_sub_one, flagsAre_iff, decF, BitVec.msb_eq_getLsbD_last]
  simp [-BitVec.getLsbD_eq_getElem, sz53nSub_getLsbD, sz53nAdd_getLsbD, nibble, flagC]

end

theorem encode_incR (r : Reg8) : (Instr.incR r).encode = [opByte (0x04 + 8 * r.field.toNat)] :=
  congrArg ([·]) (opXYZ_yField 0#2 r.field 4#3)

theorem encode_decR (r : Reg8) : (Instr.decR r).encode = [opByte (0x05 + 8 * r.field.toNat)] :=
  congrArg ([·]) (opXYZ_yField 0#2 r.field 5#3)

theorem encode_incXh (x : Idx) (h : Half) :
    (Instr.incXh x h).encode = [x.byte, if h = .high then 0x24#8 else 0x2C#8] := by cases h <;> rfl

theorem encode_decXh (x : Idx) (h : Half) :
    (Instr.decXh x h).encode = [x.byte, if h = .high then 0x25#8 else 0x2D#8] := by cases h <;> rfl

/-! ### The obligations -/

/-- Settles O39: the bytes and the result of each operation; overflow by exact arithmetic, the other flags bit by bit. -/
theorem additionResults : Obligations.AdditionResults := fun s src => by
  refine ⟨Alu.encode_form .add src, Alu.encode_form .adc src,
    ⟨_, _, Alu.exec_form .add s src, BitVec.toNat_add s.a (src.value s), ?_⟩,
    ⟨_, _, Alu.exec_form .adc s src, add_carry_toNat s.a (src.value s) s.f, ?_⟩⟩
  · rw [← addOverflow_add]
    exact flagsAre_sz53nAdd ..
  · rw [← addOverflow_add_carry]
    exact flagsAre_sz53nAdd ..

/-- Settles O40: as O39; CP has the difference only in its flags. -/
theorem subtractionResults : Obligations.SubtractionResults := fun s src => by
  refine ⟨Alu.encode_form .sub src, Alu.encode_form .sbc src, Alu.encode_form .cp src,
    ⟨_, _, Alu.exec_form .sub s src, sub_toNat_int s.a (src.value s), ?_⟩,
    ⟨_, _, Alu.exec_form .sbc s src, sub_carry_toNat s.a (src.value s) s.f, ?_⟩,
    ⟨_, exec_cpForm s src, ?_⟩⟩
  · rw [← subOverflow_sub]
    exact flagsAre_sz53nSub ..
  · rw [← subOverflow_sub_carry]
    exact flagsAre_sz53nSub ..
  · rw [← subOverflow_sub, ← sub_beq_zero]
    exact flagsAre_compare ..

/-- Settles O41: the bytes, the result and the flags of each operation. -/
theorem logicResults : Obligations.LogicResults := fun s src =>
  ⟨Alu.encode_form .and src, Alu.encode_form .xor src, Alu.encode_form .or src,
    ⟨_, Alu.exec_form .and s src, flagsAre_sz53pnAdd_h _⟩, ⟨_, Alu.exec_form .xor s src, flagsAre_sz53pnAdd _⟩,
    ⟨_, Alu.exec_form .or s src, flagsAre_sz53pnAdd _⟩⟩

/-- Settles O42: for each form its bytes, the byte it counts, and F from the old value of that byte. -/
theorem countByOneResults : Obligations.CountByOneResults := fun s r x h d =>
  ⟨encode_incR r, ⟨_, rfl, flagsAre_incF (s.reg8 r) s.f⟩,
    encode_incXh x h, ⟨_, rfl, flagsAre_incF (s.idxHalf x h) s.f⟩,
    rfl, ⟨_, rfl, flagsAre_incF (s.peek s.hl) s.f⟩,
    rfl, ⟨_, rfl, flagsAre_incF (s.peek (s.ea x d)) s.f⟩,
    encode_decR r, ⟨_, rfl, flagsAre_decF (s.reg8 r) s.f⟩,
    encode_decXh x h, ⟨_, rfl, flagsAre_decF (s.idxHalf x h) s.f⟩,
    rfl, ⟨_, rfl, flagsAre_decF (s.peek s.hl) s.f⟩,
    rfl, ⟨_, rfl, flagsAre_decF (s.peek (s.ea x d)) s.f⟩⟩

end Sys2Proof.Machine
end

section
/-! SUPPORT. The 16-bit arithmetic and the accumulator and flag operations (43_alu16_misc.md): their bytes, their results and the
eight bits of F; O43, O44, O45, O46. -/

namespace Sys2Proof.Machine

/-! ### The bytes of the instructions -/

theorem encode_addHlSs (p : Rp) : (Instr.addHlSs p).encode = [opByte (0x09 + 16 * p.field.toNat)] :=
  congrArg ([·]) (opXPQZ_pField 0#2 p.field 1#1 1#3)

theorem encode_addIxPp (x : Idx) (p : RpX) : (Instr.addIxPp x p).encode = [x.byte, opByte (0x09 + 16 * p.field.toNat)] :=
  congrArg ([x.byte, ·]) (opXPQZ_pField 0#2 p.field 1#1 1#3)

theorem encode_incSs (p : Rp) : (Instr.incSs p).encode = [opByte (0x03 + 16 * p.field.toNat)] :=
  congrArg ([·]) (opXPQZ_pField 0#2 p.field 0#1 3#3)

theorem encode_decSs (p : Rp) : (Instr.decSs p).encode = [opByte (0x0B + 16 * p.field.toNat)] :=
  congrArg ([·]) (opXPQZ_pField 0#2 p.field 1#1 3#3)

theorem encode_adcHlSs (p : Rp) : (Instr.adcHlSs p).encode = [0xED#8, opByte (0x4A + 16 * p.field.toNat)] :=
  congrArg ([0xED#8, ·]) (opXPQZ_pField 1#2 p.field 1#1 2#3)

theorem encode_sbcHlSs (p : Rp) : (Instr.sbcHlSs p).encode = [0xED#8, opByte (0x42 + 16 * p.field.toNat)] :=
  congrArg ([0xED#8, ·]) (opXPQZ_pField 1#2 p.field 0#1 2#3)

theorem encode_neg (y : BitVec 3) : (Instr.neg y).encode = [0xED#8, opByte (0x44 + 8 * y.toNat)] :=
  congrArg ([0xED#8, ·]) (opXYZ_yField 1#2 y 4#3)

/-! ### ADD of words: S, Z and PV kept, Y and X from the high byte (43_alu16_misc.md R320) -/

/-- F of an addition of words, with any H and C. -/
theorem flagsAre_add_word (f : Byte) (res : Word) (h c : Bool) :
    flagsAre ((f &&& 0xC4#8) ||| (hi res &&& 0x28#8) ||| bitH h ||| bitC c) (flagS f) (flagZ f) (res.getLsbD 13) h
      (res.getLsbD 11) (flagPV f) false c := by
  simp [flagsAre_iff, -BitVec.getLsbD_eq_getElem, hi_getLsbD, flagS, flagZ, flagPV]

theorem exec_addIxPp (x : Idx) (p : RpX) (s : State) :
    exec (.addIxPp x p) s = .next { s.setIdx x (s.idx x + s.rpX x p) with
      memptr := s.idx x + 1#16, f := add16F (s.idx x) (s.rpX x p) s.f, q := true } := by cases x <;> rfl

/-! ### Sums and differences of words with carry (43_alu16_misc.md R322, R323) -/

section
variable (a v : Word) (f : Byte)

theorem adc16_toNat : (adc16 a v f).toNat = (a.toNat + v.toNat + carryNat f) % 65536 := by
  simp [adc16, BitVec.toNat_add, carryWord_toNat]

theorem sbc16_toNat : ((sbc16 a v f).toNat : Int) = ((a.toNat : Int) - v.toNat - carryNat f) % 65536 := by
  have ha := a.isLt
  have hv := v.isLt
  have hc := carryNat_le f
  simp only [sbc16, BitVec.toNat_sub, carryWord_toNat]
  omega

/-- The sign of the sum is wrong exactly when the exact signed sum does not fit. -/
theorem adc16_overflow :
    (a.msb == v.msb && (adc16 a v f).msb != a.msb) = overflows16 (a.toInt + v.toInt + carryNat f) := by
  have ha := a.isLt
  have hv := v.isLt
  have hc := carryNat_le f
  have hres := adc16_toNat a v f
  rw [Bool.eq_iff_iff]
  simp only [overflows16, msb_toNat16, toInt_word, Bool.and_eq_true, Bool.or_eq_true, decide_eq_true_eq, beq_iff_eq,
    bne_iff_ne, ne_eq, decide_eq_decide]
  split_ifs <;> omega

/-- The sign of the difference is wrong exactly when the exact signed difference does not fit. -/
theorem sbc16_overflow :
    (a.msb != v.msb && (sbc16 a v f).msb != a.msb) = overflows16 (a.toInt - v.toInt - carryNat f) := by
  have ha := a.isLt
  have hv := v.isLt
  have hc := carryNat_le f
  have hres := sbc16_toNat a v f
  rw [Bool.eq_iff_iff]
  simp only [overflows16, msb_toNat16, toInt_word, Bool.and_eq_true, Bool.or_eq_true, decide_eq_true_eq, bne_iff_ne, ne_eq,
    decide_eq_decide]
  split_ifs <;> omega

theorem getLsbD_fifteen : a.getLsbD 15 = decide (32768 ≤ a.toNat) := by
  rw [← msb_toNat16]
  rfl

end

section
variable (res : Word) (h pv c : Bool)

/-- F of an addition of words with carry: S, Z, Y and X from the result, N clear. -/
theorem flagsAre_addCarry_word :
    flagsAre ((hi res &&& 0xA8#8) ||| bitZ (res == 0#16) ||| bitH h ||| bitPV pv ||| bitC c)
      (decide (32768 ≤ res.toNat)) (res == 0#16) (res.getLsbD 13) h (res.getLsbD 11) pv false c := by
  rw [← getLsbD_fifteen]
  simp [flagsAre_iff, -BitVec.getLsbD_eq_getElem, hi_getLsbD, bitZ]

/-- F of a subtraction of words with borrow: as of the addition, but N set. -/
theorem flagsAre_subCarry_word :
    flagsAre ((hi res &&& 0xA8#8) ||| bitZ (res == 0#16) ||| 0x02#8 ||| bitH h ||| bitPV pv ||| bitC c)
      (decide (32768 ≤ res.toNat)) (res == 0#16) (res.getLsbD 13) h (res.getLsbD 11) pv true c := by
  rw [← getLsbD_fifteen]
  simp [flagsAre_iff, -BitVec.getLsbD_eq_getElem, hi_getLsbD, bitZ]

end

/-! ### CPL, NEG, SCF and CCF (43_alu16_misc.md R329 to R332) -/

section
variable (a f : Byte) (lastQ : Bool)

theorem flagsAre_cplF :
    flagsAre (cplF (~~~a) f) (flagS f) (flagZ f) (!a.getLsbD 5) true (!a.getLsbD 3) (flagPV f) true (flagC f) := by
  rw [flagsAre_iff, cplF]
  simp [-BitVec.getLsbD_eq_getElem, flagS, flagZ, flagPV, flagC]

/-- NEG overflows on 0x80 alone. -/
theorem subOverflow_neg : subOverflow 0#8 a (0#8 - a) = (a == 0x80#8) := by
  have ha := a.isLt
  rw [subOverflow_sub, toInt_byte a, Bool.eq_iff_iff]
  simp only [overflows8, Bool.or_eq_true, decide_eq_true_eq, beq_iff_eq, ← BitVec.toNat_inj, BitVec.toInt_zero,
    BitVec.toNat_ofNat]
  split <;> omega

/-- A byte is not 0 exactly when its number is above 0. -/
theorem bne_zero_toNat : (a != 0#8) = decide (0 < a.toNat) := by
  rw [bne, beq_zero_toNat, ← decide_not, decide_eq_decide, Nat.pos_iff_ne_zero]

/-- F of NEG, a subtraction from 0: it borrows exactly when `a` is not 0. -/
theorem flagsAre_neg :
    flagsAre (sub8 0#8 a f).2 (-a).msb (a == 0#8) ((-a).getLsbD 5) (a.toNat % 16 != 0) ((-a).getLsbD 3) (a == 0x80#8) true
      (a != 0#8) := by
  have hz : (a == 0#8) = (0#8 - a == 0#8) := by rw [sub_beq_zero, BEq.comm]
  have hh : (a.toNat % 16 != 0) = decide (0 < nibble a) := by
    rw [Bool.eq_iff_iff, bne_iff_ne, decide_eq_true_eq, Nat.pos_iff_ne_zero, nibble]
  rw [← BitVec.zero_sub, bne_zero_toNat, hz, hh, ← subOverflow_neg, msb_toNat]
  exact flagsAre_sz53nSub ..

theorem scfXY_getLsbD (k : Nat) :
    (scfXY a f lastQ).getLsbD k = ((a.getLsbD k || (!lastQ && f.getLsbD k)) && (0x28#8).getLsbD k) := by
  cases lastQ <;> simp [scfXY, Bool.or_comm]

theorem flagsAre_scfF :
    flagsAre (scfF a f lastQ) (flagS f) (flagZ f) (a.getLsbD 5 || (!lastQ && f.getLsbD 5)) false
      (a.getLsbD 3 || (!lastQ && f.getLsbD 3)) (flagPV f) false true := by
  rw [flagsAre_iff, scfF]
  simp [-BitVec.getLsbD_eq_getElem, scfXY_getLsbD, flagS, flagZ, flagPV]

theorem flagsAre_ccfF :
    flagsAre (ccfF a f lastQ) (flagS f) (flagZ f) (a.getLsbD 5 || (!lastQ && f.getLsbD 5)) (flagC f)
      (a.getLsbD 3 || (!lastQ && f.getLsbD 3)) (flagPV f) false (!flagC f) := by
  rw [flagsAre_iff, ccfF]
  simp [-BitVec.getLsbD_eq_getElem, scfXY_getLsbD, flagS, flagZ, flagPV]

theorem exec_neg (y : BitVec 3) (s : State) :
    exec (.neg y) s = .next { s with a := -s.a, f := (sub8 0#8 s.a s.f).2, q := true } := by
  rw [← BitVec.zero_sub]
  rfl

/-! ### DAA (43_alu16_misc.md R328) -/

/-- What DAA adds or takes away, as a number. -/
theorem daaCorrection_toNat :
    ((daaCorrection a f).toNat : Int) = (if daaLow a f then 0x06 else 0) + (if daaHigh a f then 0x60 else 0) := by
  rw [daaCorrection]
  cases daaLow a f <;> cases daaHigh a f <;> rfl

theorem daaA_toNat :
    ((daaA a f).toNat : Int) =
      ((a.toNat : Int) + (if flagN f then -((daaCorrection a f).toNat : Int) else (daaCorrection a f).toNat)) % 256 := by
  rw [daaA]
  split
  · exact sub_toNat_int a (daaCorrection a f)
  · rw [BitVec.toNat_add, Int.natCast_mod, Int.natCast_add]
    rfl

theorem flagsAre_daaF :
    flagsAre (daaF a f) (daaA a f).msb (daaA a f == 0#8) ((daaA a f).getLsbD 5) (daaH a f) ((daaA a f).getLsbD 3)
      (evenOnes (daaA a f)) (flagN f) (daaHigh a f) := by
  rw [flagsAre_iff, daaF, BitVec.msb_eq_getLsbD_last]
  simp [-BitVec.getLsbD_eq_getElem, sz53pnAdd_getLsbD, sz53nAdd_getLsbD, parity_eq_evenOnes, flagN]

/-- The C that DAA leaves. -/
theorem flagC_daaF : flagC (daaF a f) = daaHigh a f := by
  obtain ⟨-, -, -, -, -, -, -, hC⟩ := flagsAre_daaF a f
  exact hC

end

/-! ### DAA after a sum of packed decimal bytes -/

section
variable {x1 x0 y1 y0 c : Nat} {a f : Byte} (hx0 : x0 < 10) (hy0 : y0 < 10) (hc : c ≤ 1)
  (ha : a.toNat = (16 * x1 + x0 + (16 * y1 + y0) + c) % 256)
include hx0 hy0 hc ha

/-- The low digit is corrected exactly when the low digits add to more than 9: H tells of the sums above 15, the low nibble of
those from 10 to 15. -/
theorem daaLow_packedSum (hH : flagH f = decide (15 < x0 + y0 + c)) : daaLow a f = decide (9 < x0 + y0 + c) := by
  rw [daaLow, hH, nibble, ha, Bool.eq_iff_iff]
  simp only [Bool.or_eq_true, decide_eq_true_eq]
  omega

variable (hx1 : x1 < 10) (hy1 : y1 < 10)
include hx1 hy1

/-- The high digit is corrected, and C set, exactly when the decimal sum needs a third digit. -/
theorem daaHigh_packedSum (hC : flagC f = decide (255 < 16 * x1 + x0 + (16 * y1 + y0) + c)) :
    daaHigh a f = decide (99 < 10 * x1 + x0 + (10 * y1 + y0) + c) := by
  rw [daaHigh, hC, int8, ha, Bool.eq_iff_iff]
  simp only [Bool.or_eq_true, decide_eq_true_eq]
  omega

/-- The corrected byte holds the last two digits of the decimal sum. -/
theorem daaA_packedSum (hH : flagH f = decide (15 < x0 + y0 + c)) (hN : flagN f = false)
    (hC : flagC f = decide (255 < 16 * x1 + x0 + (16 * y1 + y0) + c)) :
    (daaA a f).toNat =
      16 * ((10 * x1 + x0 + (10 * y1 + y0) + c) / 10 % 10) + (10 * x1 + x0 + (10 * y1 + y0) + c) % 10 := by
  have hres := daaA_toNat a f
  rw [daaCorrection_toNat, hN, daaLow_packedSum hx0 hy0 hc ha hH, daaHigh_packedSum hx0 hy0 hc ha hx1 hy1 hC,
    ha] at hres
  simp only [Bool.false_eq_true, if_false, decide_eq_true_eq] at hres
  split_ifs at hres <;> omega

/-- After DAA, A and C hold the decimal sum. -/
theorem daa_packedSum (hH : flagH f = decide (15 < x0 + y0 + c)) (hN : flagN f = false)
    (hC : flagC f = decide (255 < 16 * x1 + x0 + (16 * y1 + y0) + c)) :
    (daaA a f).toNat =
        16 * ((10 * x1 + x0 + (10 * y1 + y0) + c) / 10 % 10) + (10 * x1 + x0 + (10 * y1 + y0) + c) % 10 ∧
      flagC (daaF a f) = decide (99 < 10 * x1 + x0 + (10 * y1 + y0) + c) :=
  ⟨daaA_packedSum hx0 hy0 hc ha hx1 hy1 hH hN hC, (flagC_daaF a f).trans (daaHigh_packedSum hx0 hy0 hc ha hx1 hy1 hC)⟩

end

/-! ### The obligations -/

/-- Settles O43: the bytes, the sum and the flags of each addition; counting a pair writes the pair alone. -/
theorem wordAdditionResults : Obligations.WordAdditionResults := fun s p x q =>
  ⟨encode_addHlSs p, ⟨_, rfl, flagsAre_add_word ..⟩, encode_addIxPp x q, ⟨_, exec_addIxPp x q s, flagsAre_add_word ..⟩,
    encode_incSs p, rfl, rfl, rfl, encode_decSs p, rfl, rfl, rfl⟩

/-- Settles O44: the bytes and the result of each operation; overflow by exact arithmetic, the other flags bit by bit. -/
theorem wordCarryResults : Obligations.WordCarryResults := fun s p => by
  refine ⟨encode_adcHlSs p, ⟨_, _, rfl, adc16_toNat s.hl (s.rp p) s.f, ?_⟩,
    encode_sbcHlSs p, ⟨_, _, rfl, sbc16_toNat s.hl (s.rp p) s.f, ?_⟩⟩
  · rw [← adc16_overflow]
    exact flagsAre_addCarry_word ..
  · rw [← sbc16_overflow]
    exact flagsAre_subCarry_word ..

/-- Settles O45: O39 says what A and F are after the addition, and `daa_packedSum` what DAA makes of them; ADD carries nothing
in. -/
theorem daaMakesDecimalAddition : Obligations.DaaMakesDecimalAddition := fun s src x1 x0 y1 y0 hx1 hx0 hy1 hy0 hA hv => by
  obtain ⟨-, -, ⟨_, _, hadd, haddA, -, -, -, haddH, -, -, haddN, haddC⟩,
    ⟨_, _, hadc, hadcA, -, -, -, hadcH, -, -, hadcN, hadcC⟩⟩ := additionResults s src
  have hlowA : s.a.toNat % 16 = x0 := by omega
  have hlowV : (src.value s).toNat % 16 = y0 := by omega
  rw [hlowA, hlowV] at haddH hadcH
  rw [hA, hv] at haddA haddC hadcA hadcC
  exact ⟨⟨_, _, hadd, rfl, daa_packedSum (c := 0) hx0 hy0 (Nat.zero_le 1) haddA hx1 hy1 haddH haddN haddC⟩,
    ⟨_, _, hadc, rfl, daa_packedSum hx0 hy0 (carryNat_le s.f) hadcA hx1 hy1 hadcH hadcN hadcC⟩⟩

/-- Settles O46: for each instruction its bytes, its result and F; NEG is a subtraction from 0. -/
theorem accumulatorAndFlagResults : Obligations.AccumulatorAndFlagResults := fun s y => by
  refine ⟨rfl, ⟨daaA s.a s.f, _, rfl, ?_, flagsAre_daaF s.a s.f⟩,
    rfl, ⟨_, rfl, flagsAre_cplF s.a s.f⟩,
    encode_neg y, ⟨_, exec_neg y s, flagsAre_neg s.a s.f⟩,
    rfl, ⟨_, rfl, flagsAre_scfF s.a s.f s.lastQ⟩,
    rfl, ⟨_, rfl, flagsAre_ccfF s.a s.f s.lastQ⟩⟩
  rw [daaA_toNat, daaCorrection_toNat]
  rfl

end Sys2Proof.Machine
end

section
/-! SUPPORT. The rotates and shifts, the digit rotates, and bit test, set and reset (44_rotate_bit.md): their bytes, their
results as numbers and the eight bits of F; O47, O48, O49, O50. -/

namespace Sys2Proof.Machine

/-! ### Bytes put together from a high and a low part -/

/-- Where `a` has nothing below bit `n` and `b` has nothing else, they share no bit. -/
theorem or_toNat_of_split (n : Nat) {a b : Byte} (ha : 2 ^ n ∣ a.toNat) (hb : b.toNat < 2 ^ n) :
    (a ||| b).toNat = a.toNat + b.toNat := by
  obtain ⟨m, hm⟩ := ha
  rw [BitVec.toNat_or, hm]
  exact (Nat.two_pow_add_eq_or_of_lt hb m).symm

section
variable (v : Byte)

theorem shiftLeft_toNat (n : Nat) : (v <<< n).toNat = v.toNat * 2 ^ n % 256 := by
  rw [BitVec.toNat_shiftLeft, Nat.shiftLeft_eq]

theorem shiftRight_toNat (n : Nat) : (v >>> n).toNat = v.toNat / 2 ^ n := by
  rw [BitVec.toNat_ushiftRight, Nat.shiftRight_eq_div_pow]

theorem and_sign_toNat : (v &&& 0x80#8).toNat = v.toNat / 128 * 128 := by decide +revert

theorem and_lowNibble_toNat : (v &&& 0x0F#8).toNat = v.toNat % 16 := by decide +revert

theorem and_highNibble_toNat : (v &&& 0xF0#8).toNat = 16 * (v.toNat / 16) := by decide +revert

theorem getLsbD_zero_odd : v.getLsbD 0 = (v.toNat % 2 == 1) := by decide +revert

/-- A left shift whose bit 0 comes from `b`. -/
theorem shiftLeft_or_toNat {b : Byte} (hb : b.toNat ≤ 1) : (v <<< 1 ||| b).toNat = v.toNat * 2 % 256 + b.toNat := by
  have hv := shiftLeft_toNat v 1
  rw [or_toNat_of_split 1 (by omega) (by omega), hv, pow_one]

/-- A right shift whose bit 7 comes from `b`. -/
theorem shiftRight_or_toNat {b : Byte} (hb : 128 ∣ b.toNat) : (v >>> 1 ||| b).toNat = v.toNat / 2 + b.toNat := by
  have hv := shiftRight_toNat v 1
  have hlt := v.isLt
  rw [BitVec.or_comm, or_toNat_of_split 7 hb (by omega), hv, pow_one, Nat.add_comm]

end

/-! ### The table `rot[y]` (30_encoding.md R107) -/

/-- A rotate of (IX+d), whole: no register copy reaches F or MEMPTR (44_rotate_bit.md R373). -/
theorem rotateIndexed_eq (s : State) (op : RotOp) (x : Idx) (d : Byte) (copy : Option Reg8) :
    let res := op (s.peek (s.ea x d)) s.f
    s.rotateIndexed op x d copy =
      .next { ((s.emit (.readByte (s.ea x d))).store (s.ea x d) res.1).copyTo copy res.1 with
        memptr := s.ea x d, f := rotF res.1 res.2, q := true } := by
  rcases copy with _ | r
  · rfl
  · cases r <;> rfl

/-- The y field of a rotate, as the encoder writes it. -/
def Rot.field : Rot → BitVec 3
  | .rlc => 0#3 | .rrc => 1#3 | .rl => 2#3 | .rr => 3#3 | .sla => 4#3 | .sra => 5#3 | .sll => 6#3 | .srl => 7#3

/-- The model's operation. -/
def Rot.op : Rot → RotOp
  | .rlc => rlc8 | .rrc => rrc8 | .rl => rl8 | .rr => rr8 | .sla => sla8 | .sra => sra8 | .sll => sll8 | .srl => srl8

namespace Rot

variable (k : Rot)

theorem opXYZ_field (z : BitVec 3) : opXYZ 0#2 k.field z = opByte (8 * k.y + z.toNat) := by
  cases k <;> exact opXYZ_eq_opByte 0#2 _ z

theorem encode_onReg (r : Reg8) : (k.onReg r).encode = [0xCB#8, opByte (8 * k.y + r.field.toNat)] := by
  rw [← k.opXYZ_field]
  cases k <;> rfl

theorem encode_onMem : k.onMem.encode = [0xCB#8, opByte (8 * k.y + 6)] := by cases k <;> rfl

theorem encode_onIndexed (x : Idx) (d : Byte) (copy : Option Reg8) :
    (k.onIndexed x d copy).encode = [x.byte, 0xCB#8, d, opByte (8 * k.y + (copyField copy).toNat)] := by
  rw [← k.opXYZ_field]
  cases k <;> rfl

theorem exec_onReg (r : Reg8) (s : State) :
    let res := k.op (s.reg8 r) s.f
    exec (k.onReg r) s = .next { s.setReg8 r res.1 with f := rotF res.1 res.2, q := true } := by cases k <;> rfl

theorem exec_onMem (s : State) :
    let res := k.op (s.peek s.hl) s.f
    exec k.onMem s = .next { (s.emit (.readByte s.hl)).store s.hl res.1 with f := rotF res.1 res.2, q := true } := by
  cases k <;> rfl

theorem exec_onIndexed (x : Idx) (d : Byte) (copy : Option Reg8) (s : State) :
    let res := k.op (s.peek (s.ea x d)) s.f
    exec (k.onIndexed x d copy) s =
      .next { ((s.emit (.readByte (s.ea x d))).store (s.ea x d) res.1).copyTo copy res.1 with
        memptr := s.ea x d, f := rotF res.1 res.2, q := true } := by
  cases k <;> exact rotateIndexed_eq s _ x d copy

/-- The result of each rotate is its number. -/
theorem op_toNat (v f : Byte) : (k.op v f).1.toNat = k.number v.toNat (carryNat f) := by
  have hv := v.isLt
  have hc := carryNat_le f
  have hcarry := carryByte_toNat f
  cases k with
  | rlc =>
    have hlow := shiftRight_toNat v 7
    exact (shiftLeft_or_toNat v (by omega)).trans (congrArg _ hlow)
  | rl => exact (shiftLeft_or_toNat v (by omega)).trans (congrArg _ hcarry)
  | sla => exact shiftLeft_toNat v 1
  | sll => exact shiftLeft_or_toNat v (Nat.le_refl 1)
  | rrc =>
    have hhigh : (v <<< 7).toNat = v.toNat % 2 * 128 := by rw [shiftLeft_toNat]; omega
    exact (shiftRight_or_toNat v (by omega)).trans (congrArg _ hhigh)
  | rr =>
    have hhigh : (carryByte f <<< 7).toNat = carryNat f * 128 := by rw [shiftLeft_toNat]; omega
    exact (shiftRight_or_toNat v (by omega)).trans (congrArg _ hhigh)
  | sra =>
    have hhigh := and_sign_toNat v
    exact (shiftRight_or_toNat v (by omega)).trans (congrArg _ hhigh)
  | srl => exact shiftRight_toNat v 1

/-- The carry out of each rotate: bit 7 from the left ones, bit 0 from the right ones. -/
theorem op_carry (v f : Byte) : (k.op v f).2 = k.carry v.toNat := by
  cases k with
  | rlc | rl | sla | sll => exact getLsbD_seven v
  | rrc | rr | sra | srl => exact getLsbD_zero_odd v

end Rot

/-- The four rotates that have an accumulator form (44_rotate_bit.md R360 to R363), each with it. -/
def accumulatorRotates : List (Rot × Instr) := [(.rlc, .rlca), (.rrc, .rrca), (.rl, .rla), (.rr, .rra)]

theorem encode_exec_accumulatorRotate {k : Rot} {i : Instr} (h : (k, i) ∈ accumulatorRotates) (s : State) :
    i.encode = [opByte (8 * k.y + 7)] ∧
      exec i s = .next { s with a := (k.op s.a s.f).1, f := rotAF (k.op s.a s.f).1 (k.op s.a s.f).2 s.f, q := true } := by
  simp only [accumulatorRotates, List.mem_cons, Prod.mk.injEq, List.not_mem_nil, or_false] at h
  rcases h with ⟨rfl, rfl⟩ | ⟨rfl, rfl⟩ | ⟨rfl, rfl⟩ | ⟨rfl, rfl⟩ <;> exact ⟨rfl, rfl⟩

/-! ### The bits of F -/

section
variable (res v xy f : Byte) (c : Bool) (b : BitVec 3)

/-- F of a CB-page rotate: as of a logical operation, but the carry in C (44_rotate_bit.md R364). -/
theorem flagsAre_rotF :
    flagsAre (rotF res c) res.msb (res == 0#8) (res.getLsbD 5) false (res.getLsbD 3) (evenOnes res) false c := by
  rw [flagsAre_iff, rotF, BitVec.msb_eq_getLsbD_last]
  simp [-BitVec.getLsbD_eq_getElem, sz53pnAdd_getLsbD, sz53nAdd_getLsbD, parity_eq_evenOnes]

theorem flagsAre_rotAF :
    flagsAre (rotAF res c f) (flagS f) (flagZ f) (res.getLsbD 5) false (res.getLsbD 3) (flagPV f) false c := by
  rw [flagsAre_iff, rotAF]
  simp [-BitVec.getLsbD_eq_getElem, flagS, flagZ, flagPV]

/-- F of RLD and RRD: as of a logical operation, but C kept (44_rotate_bit.md R381). -/
theorem flagsAre_szpKeepCF :
    flagsAre (szpKeepCF res f) res.msb (res == 0#8) (res.getLsbD 5) false (res.getLsbD 3) (evenOnes res) false
      (flagC f) := by
  rw [flagsAre_iff, szpKeepCF, BitVec.msb_eq_getLsbD_last]
  simp [-BitVec.getLsbD_eq_getElem, sz53pnAdd_getLsbD, sz53nAdd_getLsbD, parity_eq_evenOnes, flagC]

/-- S of BIT: the bit tested is set and is bit 7. -/
theorem testedBit_and_seven : (v.getLsbD b.toNat && b == 7#3) = (b == 7#3 && v.getLsbD 7) := by
  by_cases hb : b = 7#3
  · simp [hb]
  · simp [beq_false_of_ne hb]

theorem flagsAre_bitF :
    flagsAre (bitF b v xy f) (b == 7#3 && v.getLsbD 7) (!v.getLsbD b.toNat) (xy.getLsbD 5) true (xy.getLsbD 3)
      (!v.getLsbD b.toNat) false (flagC f) := by
  rw [flagsAre_iff, bitF, bitS, testedBit_and_seven]
  simp [-BitVec.getLsbD_eq_getElem, flagC]

end

/-- The result and the flags of a CB-page rotate of any operand. -/
theorem Rot.number_flagsAre (k : Rot) (v f : Byte) :
    (k.op v f).1.toNat = k.number v.toNat (carryNat f) ∧
      flagsAre (rotF (k.op v f).1 (k.op v f).2) (k.op v f).1.msb ((k.op v f).1 == 0#8) ((k.op v f).1.getLsbD 5) false
        ((k.op v f).1.getLsbD 3) (evenOnes (k.op v f).1) false (k.carry v.toNat) := by
  rw [← k.op_carry v f]
  exact ⟨k.op_toNat v f, flagsAre_rotF ..⟩

/-! ### One bit set or reset -/

section
variable (b : BitVec 3) (v : Byte) (k : Nat) (hk : k < 8)
include hk

theorem getLsbD_setBit : (setBit b v).getLsbD k = if k = b.toNat then true else v.getLsbD k := by
  rw [setBit, bitMask, ← BitVec.twoPow_eq, BitVec.getLsbD_or, BitVec.getLsbD_twoPow]
  split <;> simp_all [eq_comm]

theorem getLsbD_resBit : (resBit b v).getLsbD k = if k = b.toNat then false else v.getLsbD k := by
  rw [resBit, bitMask, ← BitVec.twoPow_eq, BitVec.getLsbD_and, BitVec.getLsbD_not, BitVec.getLsbD_twoPow]
  split <;> simp_all [eq_comm]

end

/-! ### The bytes of BIT, SET and RES -/

section
variable (b z : BitVec 3) (r : Reg8) (x : Idx) (d : Byte) (copy : Option Reg8)

theorem encode_bitR : (Instr.bitR b r).encode = [0xCB#8, opByte (0x40 + 8 * b.toNat + r.field.toNat)] :=
  congrArg ([0xCB#8, ·]) (opXYZ_eq_opByte 1#2 b r.field)

theorem encode_bitM : (Instr.bitM b).encode = [0xCB#8, opByte (0x46 + 8 * b.toNat)] :=
  congrArg ([0xCB#8, ·]) (opXYZ_yField 1#2 b 6#3)

theorem encode_bitXd : (Instr.bitXd x b d z).encode = [x.byte, 0xCB#8, d, opByte (0x40 + 8 * b.toNat + z.toNat)] :=
  congrArg ([x.byte, 0xCB#8, d, ·]) (opXYZ_eq_opByte 1#2 b z)

theorem encode_setR : (Instr.setR b r).encode = [0xCB#8, opByte (0xC0 + 8 * b.toNat + r.field.toNat)] :=
  congrArg ([0xCB#8, ·]) (opXYZ_eq_opByte 3#2 b r.field)

theorem encode_setM : (Instr.setM b).encode = [0xCB#8, opByte (0xC6 + 8 * b.toNat)] :=
  congrArg ([0xCB#8, ·]) (opXYZ_yField 3#2 b 6#3)

theorem encode_setXd : (Instr.setXd x b d copy).encode =
    [x.byte, 0xCB#8, d, opByte (0xC0 + 8 * b.toNat + (copyField copy).toNat)] :=
  congrArg ([x.byte, 0xCB#8, d, ·]) (opXYZ_eq_opByte 3#2 b (copyField copy))

theorem encode_resR : (Instr.resR b r).encode = [0xCB#8, opByte (0x80 + 8 * b.toNat + r.field.toNat)] :=
  congrArg ([0xCB#8, ·]) (opXYZ_eq_opByte 2#2 b r.field)

theorem encode_resM : (Instr.resM b).encode = [0xCB#8, opByte (0x86 + 8 * b.toNat)] :=
  congrArg ([0xCB#8, ·]) (opXYZ_yField 2#2 b 6#3)

theorem encode_resXd : (Instr.resXd x b d copy).encode =
    [x.byte, 0xCB#8, d, opByte (0x80 + 8 * b.toNat + (copyField copy).toNat)] :=
  congrArg ([x.byte, 0xCB#8, d, ·]) (opXYZ_eq_opByte 2#2 b (copyField copy))

end

/-! ### The nibbles of RLD and RRD (44_rotate_bit.md R381, R382) -/

section
variable (a t : Byte)

/-- The high nibble of `a` over a low nibble. -/
theorem highNibble_or_toNat {b : Byte} (hb : b.toNat < 16) :
    ((a &&& 0xF0#8) ||| b).toNat = 16 * (a.toNat / 16) + b.toNat := by
  have ha := and_highNibble_toNat a
  rw [or_toNat_of_split 4 (by omega) hb, ha]

/-- The low nibble of `a`, moved up, over a low nibble. -/
theorem lowNibble_up_or_toNat {b : Byte} (hb : b.toNat < 16) : (a <<< 4 ||| b).toNat = 16 * (a.toNat % 16) + b.toNat := by
  have ha : (a <<< 4).toNat = 16 * (a.toNat % 16) := by rw [shiftLeft_toNat]; omega
  rw [or_toNat_of_split 4 (by omega) hb, ha]

theorem rld_toNat : ((t <<< 4) ||| (a &&& 0x0F#8)).toNat = 16 * (t.toNat % 16) + a.toNat % 16 ∧
    ((a &&& 0xF0#8) ||| (t >>> 4)).toNat = 16 * (a.toNat / 16) + t.toNat / 16 := by
  have ht := t.isLt
  have hlow := and_lowNibble_toNat a
  have hhigh := shiftRight_toNat t 4
  rw [lowNibble_up_or_toNat t (by omega), highNibble_or_toNat a (by omega), hlow, hhigh]
  exact ⟨rfl, rfl⟩

theorem rrd_toNat : (((a &&& 0x0F#8) <<< 4) ||| (t >>> 4)).toNat = 16 * (a.toNat % 16) + t.toNat / 16 ∧
    ((a &&& 0xF0#8) ||| (t &&& 0x0F#8)).toNat = 16 * (a.toNat / 16) + t.toNat % 16 := by
  have ht := t.isLt
  have hlow := and_lowNibble_toNat t
  have hhigh := shiftRight_toNat t 4
  rw [lowNibble_up_or_toNat _ (by omega), highNibble_or_toNat a (by omega), and_lowNibble_toNat, Nat.mod_mod, hlow, hhigh]
  exact ⟨rfl, rfl⟩

end

/-! ### The obligations -/

/-- Settles O47: the four accumulator forms from the table of rotates, then the nibbles and flags of RLD and RRD. -/
theorem accumulatorAndDigitRotates : Obligations.AccumulatorAndDigitRotates := fun s => by
  obtain ⟨hrldMem, hrldA⟩ := rld_toNat s.a (s.peek s.hl)
  obtain ⟨hrrdMem, hrrdA⟩ := rrd_toNat s.a (s.peek s.hl)
  refine ⟨fun k i h => ?_, rfl, ⟨_, _, _, rfl, hrldMem, hrldA, flagsAre_szpKeepCF ..⟩,
    rfl, ⟨_, _, _, rfl, hrrdMem, hrrdA, flagsAre_szpKeepCF ..⟩⟩
  obtain ⟨hencode, hexec⟩ := encode_exec_accumulatorRotate h s
  rw [← k.op_carry s.a s.f]
  exact ⟨hencode, _, _, hexec, k.op_toNat s.a s.f, flagsAre_rotAF ..⟩

/-- Settles O48: for each operand form its bytes and where the result goes; the result and its flags are the same in
each. -/
theorem rotateResults : Obligations.RotateResults := fun s k r x d copy =>
  ⟨k.encode_onReg r, ⟨_, _, k.exec_onReg r s, k.number_flagsAre ..⟩,
    k.encode_onMem, ⟨_, _, k.exec_onMem s, k.number_flagsAre ..⟩,
    k.encode_onIndexed x d copy,
    ⟨_, _, k.exec_onIndexed x d copy s, k.number_flagsAre ..⟩⟩

/-- Settles O49: for each operand form its bytes, and F from the operand and the byte that gives Y and X. -/
theorem bitTestResults : Obligations.BitTestResults := fun _ b z r x d =>
  ⟨encode_bitR b r, ⟨_, rfl, flagsAre_bitF ..⟩, encode_bitM b, ⟨_, rfl, flagsAre_bitF ..⟩,
    encode_bitXd b z x d, ⟨_, rfl, flagsAre_bitF ..⟩⟩

/-- Settles O50: for each operand form its bytes, where the result goes, and its bits. -/
theorem setAndResResults : Obligations.SetAndResResults := fun _ b r x d copy =>
  ⟨⟨encode_setR b r, _, rfl, getLsbD_setBit b _⟩, ⟨encode_setM b, _, rfl, getLsbD_setBit b _⟩,
    ⟨encode_setXd b x d copy, _, rfl, getLsbD_setBit b _⟩, ⟨encode_resR b r, _, rfl, getLsbD_resBit b _⟩,
    ⟨encode_resM b, _, rfl, getLsbD_resBit b _⟩, ⟨encode_resXd b x d copy, _, rfl, getLsbD_resBit b _⟩⟩

end Sys2Proof.Machine
end

section
/-! SUPPORT. The calls and restarts, and the returns (45_control.md R407 to R411, 48_cpu_control.md R501, R502); O52, O53. -/

namespace Sys2Proof.Machine

/-! ### The bytes of the instructions -/

theorem encode_callCcNn (cc : Cond) (nn : Word) :
    (Instr.callCcNn cc nn).encode = [opByte (0xC4 + 8 * cc.field.toNat), lo nn, hi nn] :=
  congrArg ([·, lo nn, hi nn]) (opXYZ_yField 3#2 cc.field 4#3)

theorem encode_rst (y : BitVec 3) : (Instr.rst y).encode = [opByte (0xC7 + 8 * y.toNat)] :=
  congrArg ([·]) (opXYZ_yField 3#2 y 7#3)

theorem encode_retCc (cc : Cond) : (Instr.retCc cc).encode = [opByte (0xC0 + 8 * cc.field.toNat)] :=
  congrArg ([·]) (opXYZ_yField 3#2 cc.field 0#3)

/-- The word of every y; with y = 1 it is RETI's (30_encoding.md R120). -/
theorem encode_retn (y : BitVec 3) : (Instr.retn y).encode = [0xED#8, opByte (0x45 + 8 * y.toNat)] :=
  congrArg ([0xED#8, ·]) (opXYZ_yField 1#2 y 5#3)

/-! ### Calls, restarts and returns, whole -/

theorem execCallCcNn_eq (cc : Cond) (nn : Word) (s : State) :
    execCallCcNn cc nn s = .next (if condHolds cc s.f then s.call nn else { s with memptr := nn }) := by
  unfold execCallCcNn
  split <;> rfl

/-- The y field of RST in its place is the target 8·y (45_control.md R411). -/
theorem rstTarget_eq (y : BitVec 3) : join 0x00#8 (0#2 ++ y ++ 0#3) = BitVec.ofNat 16 (8 * y.toNat) := by decide +revert

theorem execRst_eq (y : BitVec 3) (s : State) : execRst y s = .next (s.call (BitVec.ofNat 16 (8 * y.toNat))) := by
  rw [execRst, rstTarget_eq]

/-- The state after a return (45_control.md R409). -/
def State.returned (s : State) : State :=
  { (s.emit (.readByte s.sp)).emit (.readByte (s.sp + 1#16)) with
    sp := s.sp + 2#16, pc := join (s.peek (s.sp + 1#16)) (s.peek s.sp),
    memptr := join (s.peek (s.sp + 1#16)) (s.peek s.sp) }

theorem returning_eq_returned (s : State) : s.returning = .next s.returned := returning_eq s

theorem execRetCc_eq (cc : Cond) (s : State) :
    execRetCc cc s = .next (if condHolds cc s.f then s.returned else s) := by
  unfold execRetCc
  split
  · exact returning_eq_returned s
  · rfl

/-- The return of RETN and RETI: IFF1 becomes IFF2, the rest is RET's (48_cpu_control.md R501, R502). -/
theorem returnFromInterrupt_eq (s : State) : s.returnFromInterrupt = .next { s.returned with iff1 := s.iff2 } :=
  returning_eq_returned (s.setIffs s.iff2 s.iff2)

/-! ### The obligations -/

/-- Settles O52: every call is `State.call`, which pushes PC and jumps; a CALL cc that is not taken only writes MEMPTR. -/
theorem callResults : Obligations.CallResults := fun s nn cc y => by
  simp only [← call_eq]
  exact ⟨rfl, rfl, encode_callCcNn cc nn, execCallCcNn_eq cc nn s, encode_rst y, execRst_eq y s⟩

/-- Settles O53: the next state of each return, and its bytes. -/
theorem returnResults : Obligations.ReturnResults := fun s cc y =>
  ⟨rfl, returning_eq_returned s, encode_retCc cc, execRetCc_eq cc s, fun _ => encode_retn y, returnFromInterrupt_eq s, rfl,
    returnFromInterrupt_eq s⟩

end Sys2Proof.Machine
end

section
/-! SUPPORT. The block instructions (46_block.md): the eight bits of F after one iteration, and each repeating form as its single
form followed by `State.repeatIf`; O54, O55, O56. -/

namespace Sys2Proof.Machine

/-! ### Counters and halves after one count -/

/-- The decremented BC is 0 exactly when BC was 1. -/
theorem sub_one_bne_zero (w : Word) : (w - 1#16 != 0#16) = (w != 1#16) := by
  rw [Bool.eq_iff_iff, bne_iff_ne, bne_iff_ne]
  exact sub_ne_zero

theorem lo_add (v w : Word) : lo (v + w) = lo v + lo w := by
  apply BitVec.eq_of_toNat_eq
  simp only [lo_toNat, BitVec.toNat_add]
  omega

/-- Nothing carries into the low byte: L counts with HL (46_block.md R452). -/
theorem lo_hl_add_one (s : State) : lo (s.hl + 1#16) = s.l + 1#8 := by
  rw [lo_add, State.hl, lo_join]
  rfl

theorem lo_hl_sub_one (s : State) : lo (s.hl - 1#16) = s.l - 1#8 := by
  rw [BitVec.sub_eq_add_neg, lo_add, State.hl, lo_join, BitVec.sub_eq_add_neg]
  rfl

/-! ### The bits of F -/

@[simp] theorem blockXY_getLsbD (n : Byte) (k : Nat) :
    (blockXY n).getLsbD k = ((n.getLsbD k && (0x08#8).getLsbD k) || (n.getLsbD 1 && (0x20#8).getLsbD k)) := by
  simp [-BitVec.getLsbD_eq_getElem, blockXY, bitY]

section
variable (a v f b addend : Byte) (bc : Word)

/-- F of LDI and LDD (46_block.md R440): `bc` is the counter before it is decremented. -/
theorem flagsAre_blockLdF :
    flagsAre (blockLdF a v f (bc - 1#16)) (flagS f) (flagZ f) ((a + v).getLsbD 1) false ((a + v).getLsbD 3) (bc != 1#16)
      false (flagC f) := by
  rw [flagsAre_iff, blockLdF, sub_one_bne_zero]
  simp [-BitVec.getLsbD_eq_getElem, flagS, flagZ, flagC]

/-- The byte that gives Y and X after a block compare: the difference less its half borrow (46_block.md R444). -/
def blockCpN : Byte := if blockCpH a v then a - v - 1#8 else a - v

/-- The borrow from bit 4 as numbers. -/
theorem blockCpH_eq : blockCpH a v = decide (a.toNat % 16 < v.toNat % 16) := rfl

theorem sub_blockCpH : a - v - (if blockCpH a v then 1#8 else 0#8) = blockCpN a v := by
  unfold blockCpN
  split
  · rfl
  · exact BitVec.sub_zero _

/-- F of CPI and CPD (46_block.md R444). -/
theorem flagsAre_blockCpF :
    flagsAre (blockCpF a v f (bc - 1#16)) (a - v).msb (a == v) ((blockCpN a v).getLsbD 1)
      (decide (a.toNat % 16 < v.toNat % 16)) ((blockCpN a v).getLsbD 3) (bc != 1#16) true (flagC f) := by
  rw [flagsAre_iff, ← sub_beq_zero, ← sub_blockCpH, blockCpF, sub_one_bne_zero, BitVec.msb_eq_getLsbD_last]
  simp [-BitVec.getLsbD_eq_getElem, bitZ, blockCpH_eq, flagC]

/-- F of the block input and output instructions (46_block.md R448, R452): `b` is B before it is decremented. -/
theorem flagsAre_blockIoF :
    flagsAre (blockIoF v (b - 1#8) addend) (b - 1#8).msb (b == 1#8) ((b - 1#8).getLsbD 5)
      (decide (255 < v.toNat + addend.toNat)) ((b - 1#8).getLsbD 3)
      (evenOnes (BitVec.ofNat 8 ((v.toNat + addend.toNat) % 8) ^^^ (b - 1#8))) v.msb
      (decide (255 < v.toNat + addend.toNat)) := by
  rw [flagsAre_iff, ← sub_beq_zero, blockIoF, int8, int8, BitVec.msb_eq_getLsbD_last, BitVec.msb_eq_getLsbD_last]
  simp [-BitVec.getLsbD_eq_getElem, sz53nAdd_getLsbD, bitN, parity_eq_evenOnes]

end

/-! ### A repeating form is one iteration and then the repetition -/

/-- Each single form with its repeating form, the second byte of that form's encoding, whether it moves a byte from or to a
port, and when it repeats (46_block.md R442 to R455). -/
def blockForms : List (Instr × Instr × Nat × Bool × (State → Bool)) :=
  [(.ldi, .ldir, 0xB0, false, againLd), (.ldd, .lddr, 0xB8, false, againLd),
   (.cpi, .cpir, 0xB1, false, againCp), (.cpd, .cpdr, 0xB9, false, againCp),
   (.ini, .inir, 0xB2, true, againIo), (.ind, .indr, 0xBA, true, againIo),
   (.outi, .otir, 0xB3, true, againIo), (.outd, .otdr, 0xBB, true, againIo)]

section
variable {single repeating : Instr} {y : Nat} {isIo : Bool} {again : State → Bool}
  (h : (single, repeating, y, isIo, again) ∈ blockForms)
include h

theorem encode_repeating : repeating.encode = [0xED#8, opByte y] := by
  have hall : ∀ row ∈ blockForms, row.2.1.encode = [0xED#8, opByte row.2.2.1] := by decide
  exact hall _ h

/-- The repeating form hands the state after the single form to the repetition. -/
theorem exec_repeating {s t : State} (hs : exec single s = .next t) :
    exec repeating s = State.repeatIf again (!isIo) t := by
  have hall : ∀ row ∈ blockForms, ∀ u, exec row.1 s = .next u →
      exec row.2.1 s = State.repeatIf row.2.2.2.2 (!row.2.2.2.1) u := by
    simp only [blockForms, List.forall_mem_cons]
    refine ⟨?_, ?_, ?_, ?_, ?_, ?_, ?_, ?_, List.forall_mem_nil _⟩ <;> rintro _ ⟨⟩ <;> rfl
  exact hall _ h t hs

/-- No single form transfers control. -/
theorem single_transfersControl : transfersControl single.resolve = false := by
  have hall : ∀ row ∈ blockForms, transfersControl row.1.resolve = false := by decide
  exact hall _ h

end

/-! ### The obligations -/

/-- Settles O54: the next state of one transfer and of one compare, in both directions, with the bits of F. -/
theorem blockLoadAndCompareResults : Obligations.BlockLoadAndCompareResults := fun s =>
  ⟨rfl, ⟨_, blockLd_eq s false .next, flagsAre_blockLdF ..⟩, rfl, ⟨_, blockLd_eq s true .next, flagsAre_blockLdF ..⟩,
    rfl, ⟨_, blockCp_eq s false .next, flagsAre_blockCpF ..⟩, rfl, ⟨_, blockCp_eq s true .next, flagsAre_blockCpF ..⟩⟩

/-- Settles O55: the next state of one input and of one output, in both directions, with the bits of F; the addend of an
output is the new L. -/
theorem blockPortResults : Obligations.BlockPortResults := fun s => by
  refine ⟨rfl, ⟨_, blockIn_eq s false .next, flagsAre_blockIoF ..⟩, rfl, ⟨_, blockIn_eq s true .next, flagsAre_blockIoF ..⟩,
    rfl, ⟨_, blockOut_eq s false .next, ?_⟩, rfl, ⟨_, blockOut_eq s true .next, ?_⟩⟩
  · rw [← lo_hl_add_one]
    exact flagsAre_blockIoF ..
  · rw [← lo_hl_sub_one]
    exact flagsAre_blockIoF ..

/-- Settles O56: a repeating form is its single form followed by `State.repeatIf`, whose three cases are the three clauses; the
single form keeps PC and the parameters. The statement's table is `blockForms` with each condition read off at `t`. -/
theorem repeatingForms : Obligations.RepeatingForms := fun s t single repeating y isIo again hrow hs => by
  obtain ⟨⟨_, _, _, _, _⟩, hform, ⟨⟩⟩ :=
    List.mem_map.1 (show _ ∈ blockForms.map fun (i, j, n, io, c) => (i, j, n, io, c t) from hrow)
  have hexec := exec_repeating hform hs
  have hframe := exec_frame hs
  have hpc := hframe.pc (single_transfersControl hform)
  obtain ⟨-, -, -, -, -, hparams⟩ := hostInputs_of_keptBut hframe.kept
  rw [hexec, ← hpc, ← hparams]
  refine ⟨encode_repeating hform, fun h => repeatIf_done h _, fun h hp => ?_, fun h hp => repeatIf_refused h hp _⟩
  cases isIo <;> exact repeatIf_again h hp _

end Sys2Proof.Machine
end

section
/-! SUPPORT. Which kind of step is taken (60_exceptions.md R601 to R606), one rule per kind; O4, O6, O28. -/

namespace Sys2Proof.Machine

variable {s : State}

/-! ### When each kind of step is taken -/

/-- Inside a prefix chain nothing is sampled (60_exceptions.md R602). -/
theorem atBoundary_of_pfx (h : s.pfx ≠ none) : s.atBoundary = false := by
  simpa [State.atBoundary] using Option.isSome_iff_ne_none.2 h

theorem takesReset_of_boundary (h : s.pfx = none) : s.takesReset = s.resetRequest := by
  simp [State.takesReset, State.atBoundary, h]

theorem takesNmi_of_boundary (h : s.pfx = none) : s.takesNmi = s.nmiPending := by
  simp [State.takesNmi, State.atBoundary, h]

theorem staysHalted_of_boundary (h : s.pfx = none) : s.staysHalted = s.halted := by
  simp [State.staysHalted, State.atBoundary, h]

/-- The maskable interrupt needs IFF1, a closed EI window and the line (60_exceptions.md R605, R614). -/
theorem takesInt_iff_of_boundary (h : s.pfx = none) :
    s.takesInt = true ↔ s.iff1 = true ∧ s.pendingEI = false ∧ s.intLine = true := by
  simp [State.takesInt, State.atBoundary, h, and_assoc]

/-! ### The step of each kind, in the order of 60_exceptions.md R606 -/

theorem step_eq_reset (hreset : s.takesReset = true) : step s = .next (s.applyReset.setKind .reset) := by
  simp [step, State.cycle, hreset]

theorem step_eq_nmi (hreset : s.takesReset = false) (hnmi : s.takesNmi = true) :
    step s = onNext s.serviceNmi fun t => t.setKind .nmi := by
  simp [step, State.cycle, hreset, hnmi]

theorem step_eq_int (hreset : s.takesReset = false) (hnmi : s.takesNmi = false) (hint : s.takesInt = true) :
    step s = onNext s.serviceInt fun t => t.setKind .int := by
  simp [step, State.cycle, hreset, hnmi, hint]

theorem step_eq_halt (hreset : s.takesReset = false) (hnmi : s.takesNmi = false) (hint : s.takesInt = false)
    (hhalt : s.staysHalted = true) : step s = .next (s.haltStep.setKind .halt) := by
  simp [step, State.cycle, hreset, hnmi, hint, hhalt]

/-- Where no hook is consulted, the instruction is decoded from memory alone (30_encoding.md R118). -/
theorem decoded_of_not_hookConsulted (hhook : s.hookConsulted = false) :
    s.decoded = decodeAt s.pfx (s.peek s.pc) (s.peek (s.pc + 1#16)) (s.peek (s.pc + 2#16)) (s.peek (s.pc + 3#16)) := by
  simp [State.decoded, State.openingByte, hhook]

/-! ### The obligations -/

/-- Settles O4: the step is that of the decoded instruction, and its end is `State.finish`. -/
theorem stepRunsDecodedInstruction : Obligations.StepRunsDecodedInstruction := by
  intro s i hreset hnmi hint hhalt hhook hdec
  have hstep : step s = onNext (exec i (s.fetched i)) fun t => t.finish i := by
    rw [step_eq_instructionStep hreset hnmi hint hhalt, State.instructionStep, decoded_of_not_hookConsulted hhook, hdec]
  exact ⟨fun t ht => by rw [hstep, ht]; rfl, fun x hx => by rw [hstep, hx]; rfl⟩

/-- Settles O6: at a boundary each kind of step by its own rule; inside a prefix chain none of the others is taken. -/
theorem stepPriority : Obligations.StepPriority := by
  intro s
  refine ⟨fun hpfx hreset => ?_, fun hpfx hreset hnmi => ?_, fun hpfx hreset hnmi hiff hei hline => ?_,
    fun hpfx hreset hnmi hint => ?_, fun hpfx => ?_⟩
  · exact step_eq_reset ((takesReset_of_boundary hpfx).trans hreset)
  · exact step_eq_nmi ((takesReset_of_boundary hpfx).trans hreset) ((takesNmi_of_boundary hpfx).trans hnmi)
  · exact step_eq_int ((takesReset_of_boundary hpfx).trans hreset) ((takesNmi_of_boundary hpfx).trans hnmi)
      ((takesInt_iff_of_boundary hpfx).2 ⟨hiff, hei, hline⟩)
  · rw [← takesReset_of_boundary hpfx] at hreset
    rw [← takesNmi_of_boundary hpfx] at hnmi
    rw [← takesInt_iff_of_boundary hpfx, Bool.not_eq_true] at hint
    rw [← staysHalted_of_boundary hpfx]
    exact ⟨step_eq_halt hreset hnmi hint, step_eq_instructionStep hreset hnmi hint⟩
  · have hchain := atBoundary_of_pfx hpfx
    exact step_eq_instructionStep (by simp [State.takesReset, hchain]) (by simp [State.takesNmi, hchain])
      (by simp [State.takesInt, hchain]) (by simp [State.staysHalted, hchain])

/-- Settles O28: the reset step is `State.applyReset`, which has the registers of the reset state (O29) and keeps the rest. -/
theorem resetStep : Obligations.ResetStep := by
  intro s hpfx hreset
  obtain ⟨hstep, -⟩ := stepPriority s
  obtain ⟨haf, hbc, hde, hhl, -, -, -, -, hafAlt, hbcAlt, hdeAlt, hhlAlt, -⟩ := resetState
  exact ⟨_, hstep hpfx hreset, haf, hbc, hde, hhl, hafAlt, hbcAlt, hdeAlt, hhlAlt, rfl, rfl, rfl, rfl, rfl, rfl, rfl, rfl, rfl,
    rfl, rfl, rfl, rfl, rfl, rfl, rfl, rfl, rfl, rfl, rfl, rfl⟩

end Sys2Proof.Machine
end

section
/-! SUPPORT. The interrupt entries, whole (60_exceptions.md R607 to R613), and the return from one; O24, O25, O26, O27, O30. -/

namespace Sys2Proof.Machine

variable {s : State}

/-! ### Maskable-interrupt entry in each mode -/

/-- What a maskable-interrupt entry has done when it turns to the mode (60_exceptions.md R608); `entering_eq` gives it whole. -/
def State.entering (s : State) : State := (((s.clearPvOfLdAIR).leaveHalt).incR).setIffs false false

theorem setIffs_eq_entering (s : State) : (((s.clearPvOfLdAIR).leaveHalt).incR).setIffs false false = s.entering := rfl

theorem entering_im (s : State) : s.entering.im = s.im := by rw [State.entering, entering_eq]

theorem entering_i (s : State) : s.entering.i = s.i := by rw [State.entering, entering_eq]

theorem entering_ackAnswer (s : State) : s.entering.ackAnswer = s.ackAnswer := by
  rw [State.entering, entering_eq]
  rfl

/-- Mode 0 with an RST byte: the handler is where that RST goes (60_exceptions.md R609). -/
theorem serviceInt_im0_rst (him : s.im = .im0) (hrst : s.ackAnswer &&& 0xC7#8 = 0xC7#8) :
    s.serviceInt = s.entering.afterIntAck.takeInterrupt (fixedVector (join 0x00#8 (s.ackAnswer &&& 0x38#8))) := by
  simp only [State.serviceInt, setIffs_eq_entering, entering_im, entering_ackAnswer, him, if_pos hrst]

/-- Mode 0 with any other byte is refused (60_exceptions.md R609, D7). -/
theorem serviceInt_im0_refused (him : s.im = .im0) (hrst : s.ackAnswer &&& 0xC7#8 ≠ 0xC7#8) :
    s.serviceInt = .refused .im0NonRst := by
  simp only [State.serviceInt, setIffs_eq_entering, entering_im, entering_ackAnswer, him, if_neg hrst]

/-- Mode 1: the handler is at 0x0038 (60_exceptions.md R610). -/
theorem serviceInt_im1 (him : s.im = .im1) :
    s.serviceInt = s.entering.takeInterrupt (fixedVector Config.im1Vector) := by
  simp only [State.serviceInt, setIffs_eq_entering, entering_im, him]

/-- Mode 2: the handler's address stands at I:b (60_exceptions.md R611). -/
theorem serviceInt_im2 (him : s.im = .im2) :
    s.serviceInt = s.entering.afterIntAck.takeInterrupt fun t k => t.loading16 (join s.i s.ackAnswer) k := by
  simp only [State.serviceInt, setIffs_eq_entering, entering_im, entering_i, entering_ackAnswer, him]

/-- Taking an interrupt at an address read from the table, whole (60_exceptions.md R611). -/
theorem takeInterrupt_table_eq (s : State) (table : Word) :
    (s.takeInterrupt fun t k => t.loading16 table k) = .next
      { ((s.push16 s.pc).emit (.readByte table)).emit (.readByte (table + 1#16)) with
        pc := join ((s.push16 s.pc).peek (table + 1#16)) ((s.push16 s.pc).peek table),
        memptr := join ((s.push16 s.pc).peek (table + 1#16)) ((s.push16 s.pc).peek table),
        lastQ := false, lastLdAIR := false } := by
  simp only [State.takeInterrupt, loading16_eq, State.jump, State.setPc, State.setMemptr, State.setLastQ,
    State.setLastLdAIR]

/-! ### The return from an interrupt -/

/-- A return from a state that has memory and SP as a push left them goes to the word pushed, SP being as before the push. -/
theorem returned_of_push16 {s t : State} {v : Word} (hwf : s.mem.wf = true) (hmem : t.mem = (s.push16 v).mem)
    (hsp : t.sp = (s.push16 v).sp) : t.returned.pc = v ∧ t.returned.memptr = v ∧ t.returned.sp = s.sp := by
  have htop : join (t.peek (t.sp + 1#16)) (t.peek t.sp) = v := by
    simp only [State.peek, hmem, hsp]
    exact topWord_push16 hwf v
  refine ⟨htop, htop, ?_⟩
  calc t.returned.sp
      = t.sp + 2#16 := rfl
    _ = s.sp := by rw [hsp, push16_sp, sub_two_add_two]

/-- A handler at a fixed address is entered with memory and SP as the push of PC left them. -/
theorem takeInterrupt_fixed_stack {t : State} {target : Word} (h : s.takeInterrupt (fixedVector target) = .next t) :
    t.mem = (s.push16 s.pc).mem ∧ t.sp = (s.push16 s.pc).sp := by
  obtain rfl := Host.Outcome.next.inj h
  exact ⟨rfl, rfl⟩

/-! ### The obligations -/

/-- Settles O24: the entry is `State.serviceNmi`, which `serviceNmi_eq` gives whole. -/
theorem nmiEntry : Obligations.NmiEntry := by
  intro s hpfx hreset hnmi pc
  obtain ⟨-, hstep, -⟩ := stepPriority s
  rw [hstep hpfx hreset hnmi, serviceNmi_eq]
  rfl

/-- Settles O25: in mode 1 the handler's address is fixed. -/
theorem im1Entry : Obligations.Im1Entry := by
  intro s hpfx hreset hnmi hiff hei hline him pc
  obtain ⟨-, -, hstep, -⟩ := stepPriority s
  rw [hstep hpfx hreset hnmi hiff hei hline, serviceInt_im1 him, State.entering, entering_eq, takeInterrupt_fixed_eq]
  rfl

/-- Settles O26: an RST byte gives the handler's address, another byte the refusal. -/
theorem im0Entry : Obligations.Im0Entry := by
  intro s hpfx hreset hnmi hiff hei hline him pc target
  obtain ⟨-, -, hstep, -⟩ := stepPriority s
  rw [hstep hpfx hreset hnmi hiff hei hline]
  refine ⟨fun hrst => ?_, fun hrst => ?_⟩
  · rw [serviceInt_im0_rst him hrst, State.entering, entering_eq, takeInterrupt_fixed_eq]
    rfl
  · rw [serviceInt_im0_refused him hrst]
    rfl

/-- Settles O27: in mode 2 the handler's address is read after the push. -/
theorem im2Entry : Obligations.Im2Entry := by
  intro s hpfx hreset hnmi hiff hei hline him pc table pushed target
  obtain ⟨-, -, hstep, -⟩ := stepPriority s
  rw [hstep hpfx hreset hnmi hiff hei hline, serviceInt_im2 him, State.entering, entering_eq, takeInterrupt_table_eq, push16_eq]
  rfl

/-- Settles O30: what the entry pushed is the resumed PC (`leaveHalt_eq`), and RETN takes it back; the flip-flops and Halted are
as the entry left them. -/
theorem retnUndoesNmiEntry : Obligations.RetnUndoesNmiEntry := by
  intro s t y pc hwf hentry resume
  obtain ⟨he, hiff2, -⟩ := serviceNmi_entry hentry
  have hleft := leaveHalt_eq (s.setNmiPending false)
  obtain ⟨hmem, hstack⟩ := takeInterrupt_fixed_stack hentry
  obtain ⟨hpc, hmemptr, hsp⟩ := returned_of_push16 (t := { t with pc := pc }) (by rw [hleft]; exact hwf) hmem hstack
  refine ⟨_, returnFromInterrupt_eq _, hpc.trans ?_, hsp.trans ?_, hmemptr.trans ?_, he.halted, hiff2, hiff2,
    fun h => ⟨hiff2.trans h.symm, hiff2⟩⟩
  all_goals rw [hleft]; rfl

end Sys2Proof.Machine
end

section
/-! SUPPORT. How a step can stop (60_exceptions.md R600, R609, 46_block.md R456); O8. -/

namespace Sys2Proof.Machine

variable {s : State}

/-- The end of a block iteration completes, or is the repetition that `pc_high` refuses (46_block.md R456). -/
theorem repeatIf_outcome (again : State → Bool) (setsMemptr : Bool) (s : State) :
    Completes (State.repeatIf again setsMemptr s) ∨
      (State.repeatIf again setsMemptr s = .refused .blockRepeatPcHigh ∧ s.params.blockRepeatXY = .pcHigh) := by
  cases hagain : again s with
  | false => exact .inl ⟨_, repeatIf_done hagain setsMemptr⟩
  | true =>
    cases hparams : s.params.blockRepeatXY with
    | asSingle => exact .inl ⟨_, repeatIf_again hagain hparams setsMemptr⟩
    | pcHigh => exact .inr ⟨repeatIf_refused hagain hparams setsMemptr, rfl⟩

/-- An instruction completes, or is a repetition that `pc_high` refuses. -/
theorem exec_outcome {i : Instr} (hi : i.resolve = i) (s : State) :
    Completes (exec i s) ∨
      (exec i s = .refused .blockRepeatPcHigh ∧ s.params.blockRepeatXY = .pcHigh ∧ repeats i = true) := by
  cases i with
  | cbPrefix | edPrefix | ddCb | edAfterIndex | prefixIgnored => exact absurd rfl (coreBody_of_resolve hi)
  | ldir | lddr | cpir | cpdr | inir | indr | otir | otdr =>
    exact (repeatIf_outcome _ _ _).imp_right fun ⟨hrefused, hparams⟩ => ⟨hrefused, hparams, rfl⟩
  | djnz | jrCc | jpCcNn | callCcNn => exact .inl (completes_ite (completes_next _) (completes_next _))
  | retCc => exact .inl (completes_ite (returning_completes s) (completes_next s))
  | popQq p => cases p <;> exact .inl (completes_next _)
  | _ => exact .inl (completes_next _)

/-- A maskable-interrupt entry completes, or is in mode 0 with a byte that is no RST (60_exceptions.md R609). -/
theorem serviceInt_outcome (s : State) :
    Completes s.serviceInt ∨
      (s.serviceInt = .refused .im0NonRst ∧ s.im = .im0 ∧ s.ackAnswer &&& 0xC7#8 ≠ 0xC7#8) := by
  cases him : s.im with
  | im0 =>
    by_cases hrst : s.ackAnswer &&& 0xC7#8 = 0xC7#8
    · exact .inl ⟨_, serviceInt_im0_rst him hrst⟩
    · exact .inr ⟨serviceInt_im0_refused him hrst, rfl, hrst⟩
  | im1 => exact .inl ⟨_, serviceInt_im1 him⟩
  | im2 => exact .inl ⟨_, (serviceInt_im2 him).trans (takeInterrupt_table_eq _ _)⟩

theorem Completes.onNext {res : Result} (h : Completes res) (g : State → State) : Completes (onNext res g) := by
  obtain ⟨t, rfl⟩ := h
  exact completes_next (g t)

theorem onNext_refused {res : Result} {x : Refusal} (h : res = .refused x) (g : State → State) :
    onNext res g = .refused x := by
  rw [h]
  rfl

/-- Settles O8: each kind of step in the order of R606; only a maskable interrupt and an instruction can be refused. -/
theorem stepNeverStopsElsewhere : Obligations.StepNeverStopsElsewhere := by
  intro s
  cases hreset : s.takesReset with
  | true => exact .inl ⟨_, step_eq_reset hreset⟩
  | false =>
  cases hnmi : s.takesNmi with
  | true =>
    rw [step_eq_nmi hreset hnmi]
    exact .inl (Completes.onNext ⟨_, serviceNmi_eq s⟩ _)
  | false =>
  cases hint : s.takesInt with
  | true =>
    rw [step_eq_int hreset hnmi hint]
    exact (serviceInt_outcome s).imp (·.onNext _) fun ⟨hrefused, him, hrst⟩ =>
      .inl ⟨onNext_refused hrefused _, rfl, him, hrst⟩
  | false =>
  cases hhalt : s.staysHalted with
  | true => exact .inl ⟨_, step_eq_halt hreset hnmi hint hhalt⟩
  | false =>
    rw [step_eq_instructionStep hreset hnmi hint hhalt, State.instructionStep]
    obtain ⟨-, -, -, -, -, hparams, -⟩ := fetched_kept s s.decoded
    have hexec := exec_outcome (decoded_resolve s) (s.fetched s.decoded)
    rw [hparams] at hexec
    exact hexec.imp (·.onNext _) fun ⟨hrefused, hrest⟩ => .inr ⟨onNext_refused hrefused _, hrest⟩

end Sys2Proof.Machine
end

section
/-! SUPPORT. The input and output instructions (47_io.md), the CPU control instructions and the loads of I and R
(48_cpu_control.md): their bytes, their results and F; O57, O58, O59. -/

namespace Sys2Proof.Machine

/-! ### The bytes of the instructions -/

theorem encode_inRC (r : Reg8) : (Instr.inRC r).encode = [0xED#8, opByte (0x40 + 8 * r.field.toNat)] :=
  congrArg ([0xED#8, ·]) (opXYZ_yField 1#2 r.field 0#3)

theorem encode_outCR (r : Reg8) : (Instr.outCR r).encode = [0xED#8, opByte (0x41 + 8 * r.field.toNat)] :=
  congrArg ([0xED#8, ·]) (opXYZ_yField 1#2 r.field 1#3)

/-- Two bits in front of six, as a number. -/
theorem append_eq_opByte (k : BitVec 2) (x : BitVec 6) : k ++ x = opByte (64 * k.toNat + x.toNat) := by decide +revert

theorem encode_nopEd0 (x : BitVec 6) : (Instr.nopEd0 x).encode = [0xED#8, opByte x.toNat] :=
  congrArg ([0xED#8, ·]) ((append_eq_opByte 0#2 x).trans (congrArg opByte (Nat.zero_add _)))

theorem encode_nopEd2 (y z : BitVec 3) : (Instr.nopEd2 y z).encode = [0xED#8, opByte (0x80 + 8 * y.toNat + z.toNat)] :=
  congrArg ([0xED#8, ·]) (opXYZ_eq_opByte 2#2 y z)

theorem encode_nopEd3 (x : BitVec 6) : (Instr.nopEd3 x).encode = [0xED#8, opByte (0xC0 + x.toNat)] :=
  congrArg ([0xED#8, ·]) (append_eq_opByte 3#2 x)

theorem encode_nopEd7 (y3 : Bool) : (Instr.nopEd7 y3).encode = [0xED#8, if y3 then 0x7F#8 else 0x77#8] := by
  cases y3 <;> rfl

theorem encode_im0 (y5 y3 : Bool) : (Instr.im0 y5 y3).encode =
    [0xED#8, opByte (0x46 + (if y5 then 0x20 else 0) + (if y3 then 8 else 0))] := by
  cases y5 <;> cases y3 <;> rfl

theorem encode_im1 (y5 : Bool) : (Instr.im1 y5).encode = [0xED#8, if y5 then 0x76#8 else 0x56#8] := by cases y5 <;> rfl

theorem encode_im2 (y5 : Bool) : (Instr.im2 y5).encode = [0xED#8, if y5 then 0x7E#8 else 0x5E#8] := by cases y5 <;> rfl

/-! ### F of LD A,I and LD A,R -/

/-- S, Z, Y and X from the byte loaded, IFF2 in PV, H and N clear, C kept (48_cpu_control.md R499). -/
theorem flagsAre_ldAirF (v f : Byte) (iff2 : Bool) :
    flagsAre (ldAirF v f iff2) v.msb (v == 0#8) (v.getLsbD 5) false (v.getLsbD 3) iff2 false (flagC f) := by
  rw [flagsAre_iff, ldAirF, BitVec.msb_eq_getLsbD_last]
  simp [-BitVec.getLsbD_eq_getElem, sz53nAdd_getLsbD, flagC]

/-! ### The obligations -/

/-- Settles O57: for each form its bytes, its port request and what it writes; F of an input is that of RLD and RRD. -/
theorem portResults : Obligations.PortResults := fun s _ r =>
  ⟨rfl, rfl, encode_inRC r, ⟨_, rfl, flagsAre_szpKeepCF (s.portAnswer s.bc) s.f⟩,
    rfl, ⟨_, rfl, flagsAre_szpKeepCF (s.portAnswer s.bc) s.f⟩, rfl, rfl, encode_outCR r, rfl, rfl, rfl⟩

/-- Settles O58: the bytes of each form, and the control state it writes. -/
theorem controlResults : Obligations.ControlResults := fun _ x y z y5 y3 =>
  ⟨rfl, rfl, encode_nopEd0 x, rfl, encode_nopEd2 y z, rfl, encode_nopEd3 x, rfl, encode_nopEd7 y3, rfl, rfl, rfl, rfl, rfl,
    rfl, rfl, encode_im0 y5 y3, rfl, encode_im1 y5, rfl, encode_im2 y5, rfl⟩

/-- Settles O59: the bytes of each load, the register it writes, and F of the loads of A. -/
theorem specialRegisterLoads : Obligations.SpecialRegisterLoads := fun s =>
  ⟨rfl, rfl, rfl, rfl, rfl, ⟨_, rfl, flagsAre_ldAirF s.i s.f s.iff2⟩, rfl, ⟨_, rfl, flagsAre_ldAirF s.r s.f s.iff2⟩⟩

end Sys2Proof.Machine
end
